-- ==== Sys2Proof/Word.lean ====
section
/-! DEFINITION. The three unsigned widths of FRMCODEC: 8, 16 and 32 bits (00_scope.md R9; no value is signed). -/

namespace Sys2Proof

/-- A `u8` of 00_scope.md R9. -/
abbrev Byte := BitVec 8

/-- A `u16` of 00_scope.md R9: the width of ENV_LEN, FC, DURATION, SEQCTRL, PLEN, SKIP_START and SKIP_END. -/
abbrev Half := BitVec 16

/-- A `u32` of 00_scope.md R9: a bus word, a command word, a marker, an integrity code. -/
abbrev Word := BitVec 32

end Sys2Proof
end

