-- ==== Sys2Proof/Config.lean ====
section
/-! DEFINITION. The implementation parameters of 00_scope.md R7, the constants of R8, and the free values. -/

namespace Sys2Proof

/-- The parameters a model of FRMCODEC takes (00_scope.md R7). A value of this type is a legal
configuration: the bounds on MAX_PAYLOAD are carried with it.
DESIGN CHOICE (log 2), unsafe only for a claim about `State.reset` itself: the configuration stands in
the state as a constant, so a statement about every state is about every configuration. -/
structure Config where
  /-- MAX_PAYLOAD, the payload capacity in bytes. -/
  maxPayload : Nat
  /-- START_MARKER_RESET, any 32-bit value. -/
  startMarkerReset : Word
  /-- END_MARKER_RESET, any 32-bit value. -/
  endMarkerReset : Word
  /-- "any bound ≥ 100 bytes" (R7). -/
  maxPayload_ge : 100 ≤ maxPayload
  /-- 4052 + 44 = 4096 bytes, the ENV_BUF window (R7). -/
  maxPayload_le : maxPayload ≤ 4052
deriving DecidableEq, Repr

namespace Config

/-- HDR_LEN (00_scope.md R8): frameControl to fourthAddress. -/
def hdrLen : Nat := 30

/-- LEN_LEN (R8): the payload length prefix. -/
def lenLen : Nat := 2

/-- BODY_FIXED (R8): the checksummed bytes of an empty payload. -/
def bodyFixed : Nat := hdrLen + lenLen

/-- ENV_OVERHEAD (R8): the start marker, the fixed body, the integrity code and the end marker. -/
def envOverhead : Nat := 4 + bodyFixed + 4 + 4

/-- MAX_ENVELOPE (R8). -/
def maxEnvelope (c : Config) : Nat := c.maxPayload + envOverhead

/-- The reference configuration of R7, which 95_test_vectors.md uses. It is a test configuration
only: DESIGN CHOICE (log 2) that `State.reset` takes it. -/
def reference : Config where
  maxPayload := 256
  startMarkerReset := 0xC0DEFACE
  endMarkerReset := 0xFACEC0DE
  maxPayload_ge := by decide
  maxPayload_le := by decide

/-- FREE VALUE (log 5): what a read of a result-bearing offset returns while a command runs, "a fresh
draw on each read" (70_reset_and_hazards.md R116). Its argument is the number of the draw. -/
opaque busyRead : Nat → Word

/-- FREE VALUE (log 4): PAY_INIT, the payload buffer's contents after a reset, "fresh arbitrary arrays
at each reset" (70_reset_and_hazards.md R113). Arguments: the number of the draw, the byte's index. -/
opaque payInit : Nat → Nat → Byte

/-- FREE VALUE (log 4): ENV_INIT, the envelope buffer's contents after a reset, as `payInit`. -/
opaque envInit : Nat → Nat → Byte

end Config

end Sys2Proof
end

