-- ==== Sys2Proof/Syntax.lean ====
section
/-! DEFINITION. The commands of FRMCODEC: one constructor per row of spec/opcode_table.json (30_encoding.md R58). -/

namespace Sys2Proof

/-- A command, as the CMD register selects it (30_encoding.md R58). No command has an operand in its
word (R59): every operand is a register or a buffer that the command's rule names. -/
inductive Instr where
  /-- NOP, 43_control.md R93. -/
  | nop
  /-- ENCODE, 41_frame_codec.md R77. -/
  | encode
  /-- ENCODE_KEEP, 41_frame_codec.md R78. -/
  | encodeKeep
  /-- DECODE, 41_frame_codec.md R79. -/
  | decode
  /-- VERIFY, 42_checksum.md R89. -/
  | verify
  /-- CHECKSUM, 42_checksum.md R88. -/
  | checksum
  /-- CLEAR, 43_control.md R94. -/
  | clear
  /-- RESERVED, 43_control.md R95: any other 32-bit word, carried so that encoding gives it back. -/
  | reserved (w : Word)
deriving DecidableEq, Repr

end Sys2Proof
end

