-- ==== Sys2Proof/Machine/State.lean ====
section
/-! DEFINITION. The state of FRMCODEC as plain data (10_state.md R40), the moves of its two agents, and reset. -/

namespace Sys2Proof.Machine

/-- A byte buffer: cells in canonical form, see `Memory.wf`. -/
abbrev Memory := List Host.Cell

/-- A 6-byte station identifier, `id0` first in wire order (10_state.md R31). -/
structure StationId where
  id0 : Byte
  id1 : Byte
  id2 : Byte
  id3 : Byte
  id4 : Byte
  id5 : Byte
deriving DecidableEq, Repr

/-- The identifier of six zero bytes. -/
def StationId.zero : StationId := ⟨0, 0, 0, 0, 0, 0⟩

/-- The registers of the map of 10_state.md R16. -/
inductive Reg where
  | id | param | config | status | cmd
  | startMarker | endMarker | envLen | fc | duration | seqCtrl | plen
  | fcs | chkResult | skipStart | skipEnd
  | dest0 | dest1 | src0 | src1 | bssid0 | bssid1 | addr40 | addr41
deriving DecidableEq, Repr

/-- What an offset of the window selects (10_state.md R16). -/
inductive Target where
  /-- A register. -/
  | reg (r : Reg)
  /-- Word `k` of PAYLOAD_BUF. -/
  | payWord (k : Nat)
  /-- Word `k` of ENV_BUF. -/
  | envWord (k : Nat)
  /-- No register: reads 0, ignores writes (R32). -/
  | reserved
deriving DecidableEq, Repr

/-- The error codes of 60_exceptions.md R98; their numbers are `ErrorCode.code`. -/
inductive ErrorCode where
  | ok | tooShort | unknownFrame | payloadTooLarge | lengthMismatch | badRange | badCommand
deriving DecidableEq, Repr

/-- The two agents of 10_state.md R13. -/
inductive Agent where
  | host
  | engine
deriving DecidableEq, Repr

/-- One move of the host: a line of a host script (00_scope.md R12) or the reset input
(70_reset_and_hazards.md R112). -/
inductive HostMove where
  /-- `RD off`: one read transaction (20_memory.md R42). -/
  | read (off : Nat)
  /-- `WR off, v`: one write transaction (20_memory.md R43). -/
  | write (off : Nat) (v : Word)
  /-- `WAIT`: `RD 0x00C` repeated until STATUS.BUSY = 0 (00_scope.md R12). -/
  | wait
  /-- The assertion of reset (70_reset_and_hazards.md R112). -/
  | reset
deriving DecidableEq, Repr

/-- The state of FRMCODEC (10_state.md R40), then the model's own fields. STATUS.BUSY is
`pend ≠ none` (R35). -/
structure State where
  /-- CONFIG.ALG, R19: false is 0 = OAAT, true is 1 = XOR8. -/
  alg : Bool
  /-- CONFIG.IE, R19. -/
  ie : Bool
  /-- STATUS.DONE, R20. -/
  done : Bool
  /-- STATUS.HAZ, R20. -/
  haz : Bool
  /-- STATUS.INTEGRITY_OK, R20. -/
  integrityOk : Bool
  /-- STATUS.ERR, R20. -/
  err : BitVec 4
  /-- PEND, R35: the accepted command word. -/
  pend : Option Word
  /-- START_MARKER, R22. -/
  startMarker : Word
  /-- END_MARKER, R22. -/
  endMarker : Word
  /-- ENV_LEN, R23. -/
  envLen : Half
  /-- FC, R24. -/
  fc : Half
  /-- DURATION, R25. -/
  duration : Half
  /-- SEQCTRL, R26. -/
  seqCtrl : Half
  /-- PLEN, R27. -/
  plen : Half
  /-- FCS, R28. -/
  fcs : Word
  /-- CHK_RESULT, R29. -/
  chkResult : Word
  /-- SKIP_START, R30. -/
  skipStart : Half
  /-- SKIP_END, R30. -/
  skipEnd : Half
  /-- DEST_0 and DEST_1, R31. -/
  dest : StationId
  /-- SRC_0 and SRC_1, R31. -/
  src : StationId
  /-- BSSID_0 and BSSID_1, R31. -/
  bssid : StationId
  /-- ADDR4_0 and ADDR4_1, R31. -/
  addr4 : StationId
  /-- PAYLOAD_BUF, R33. -/
  pay : Memory
  /-- ENV_BUF, R34. -/
  env : Memory
  /-- The model's own (log 2): the parameters of 00_scope.md R7, which no step changes. -/
  cfg : Config
  /-- The model's own (log 7): the host's remaining moves. -/
  script : List HostMove
  /-- The model's own (log 1): whose turn the coming steps are. -/
  schedule : List Agent
  /-- The model's own (log 7): the words HostRead has returned, latest first. -/
  reads : List Word
  /-- The model's own (log 7): how many free values have been drawn. -/
  draws : Nat
deriving DecidableEq, Repr

/-- FRMCODEC takes no trap and "no behaviour of FRMCODEC is stuck" (60_exceptions.md R102,
93_implementation_defined.md): a step never ends in a fault. A failing command completes with an
error code in STATUS.ERR. DEDUCED (log 18), safe. -/
inductive Fault where
deriving DecidableEq, Repr

/-- Why a step has no next state. -/
inductive Refusal where
  /-- Raised by no arm of `exec`: every command has its meaning. Safe. -/
  | notModelled (mnemonic : String)
  /-- Raised by a host move whose offset is misaligned or outside the window: "a model refuses it: the
  host has no such step, and no state changes" (20_memory.md R41). Safe (log 8). -/
  | notATransaction (off : Nat)
deriving DecidableEq, Repr

/-- The state right after reset (70_reset_and_hazards.md R112) under configuration `c` and with the
given buffer contents, PAY_INIT and ENV_INIT. The model's own fields start empty (log 7). -/
def State.resetWith (c : Config) (payInit envInit : Memory) : State where
  alg := false
  ie := false
  done := false
  haz := false
  integrityOk := false
  err := 0
  pend := none
  startMarker := c.startMarkerReset
  endMarker := c.endMarkerReset
  envLen := 0
  fc := 0
  duration := 0
  seqCtrl := 0
  plen := 0
  fcs := 0
  chkResult := 0
  skipStart := 0
  skipEnd := 0
  dest := .zero
  src := .zero
  bssid := .zero
  addr4 := .zero
  pay := payInit
  env := envInit
  cfg := c
  script := []
  schedule := []
  reads := []
  draws := 0

/-- The machine right after reset, in the reference configuration (DESIGN CHOICE, log 2), with no byte
of either buffer listed (DESIGN CHOICE, log 3). -/
def State.reset : State := State.resetWith Config.reference [] []

end Sys2Proof.Machine
end

