-- ==== Sys2Proof/Machine/Flags.lean ====
section
/-! DEFINITION. The STATUS flags: BUSY, the error codes, the STATUS word, its W1C bits, and the interrupt output. -/

namespace Sys2Proof.Machine

/-- STATUS.BUSY: 1 exactly when PEND ≠ none (10_state.md R35). DEDUCED (log 6), safe. -/
def State.busy (s : State) : Bool := s.pend.isSome

/-- The value of STATUS.ERR for an error code (60_exceptions.md R98). -/
def ErrorCode.code : ErrorCode → BitVec 4
  | .ok => 0
  | .tooShort => 1
  | .unknownFrame => 2
  | .payloadTooLarge => 3
  | .lengthMismatch => 4
  | .badRange => 5
  | .badCommand => 6

/-- The STATUS register as a word (10_state.md R20): BUSY 0, DONE 1, HAZ 2, INTEGRITY_OK 3, ERR 11:8,
reserved bits 0. -/
def State.statusWord (s : State) : Word :=
  0#20 ++ s.err ++ 0#4 ++ BitVec.ofBool s.integrityOk ++ BitVec.ofBool s.haz ++ BitVec.ofBool s.done
    ++ BitVec.ofBool s.busy

/-- A host write of `v` to STATUS: bit 1 clears DONE, bit 2 clears HAZ, every other bit is ignored (10_state.md R20). -/
def State.writeStatus (v : Word) (s : State) : State :=
  { s with done := s.done && !v.getLsbD 1, haz := s.haz && !v.getLsbD 2 }

/-- The interrupt output: CONFIG.IE & STATUS.DONE (60_exceptions.md R103). No rule of the block reads it. -/
def State.irq (s : State) : Bool := s.ie && s.done

end Sys2Proof.Machine
end

