-- ==== Sys2Proof/Machine/Ops.lean ====
section
/-! DEFINITION. The shared operations: big-endian integers, the byte buffers, issue, completion with an error code, reset, and turns. -/

namespace Sys2Proof.Machine

/-- BE_n(v): the n-byte big-endian encoding of v, most significant byte first (00_scope.md R10). -/
def be : Nat → Nat → List Byte
  | 0, _ => []
  | n + 1, v => BitVec.ofNat 8 (v / 2 ^ (8 * n)) :: be n v

/-- unBE(s): the sum of s[i]·2^(8(len(s)−1−i)) (00_scope.md R10). -/
def unBE : List Byte → Nat
  | [] => 0
  | b :: bs => b.toNat * 2 ^ (8 * bs.length) + unBE bs

/-- What a byte that no cell lists reads as.
DESIGN CHOICE (log 3): the spec gives no contents after power-on. Unsafe for claims about `State.reset` alone. -/
def Memory.unlisted : Byte := 0

/-- The canonical form of a buffer: addresses strictly rising, no cell equal to what an unlisted byte reads as. -/
abbrev Memory.wf (m : Memory) : Prop :=
  m.Pairwise (fun c d => c.1 < d.1) ∧ ∀ c ∈ m, c.2 ≠ Memory.unlisted

/-- Every listed byte lies below the capacity. -/
abbrev Memory.within (cap : Nat) (m : Memory) : Prop := ∀ c ∈ m, c.1 < cap

/-- The byte at an address. -/
def Memory.read : Memory → Nat → Byte
  | [], _ => Memory.unlisted
  | (b, v) :: m, a => if b = a then v else Memory.read m a

/-- The cells of bytes stored from an address on, in canonical form. -/
def Memory.cells : Nat → List Byte → Memory
  | _, [] => []
  | a, v :: vs => if v = Memory.unlisted then Memory.cells (a + 1) vs else (a, v) :: Memory.cells (a + 1) vs

/-- Store a byte sequence from an address on, keeping the canonical form. -/
def Memory.write (m : Memory) (a : Nat) (bs : List Byte) : Memory :=
  m.filter (fun c => decide (c.1 < a)) ++ Memory.cells a bs ++ m.filter (fun c => decide (a + bs.length ≤ c.1))

/-- A byte of a buffer of the given capacity: bytes at or above it read 0 (10_state.md R33, R34). -/
def Memory.loadByte (cap : Nat) (m : Memory) (i : Nat) : Byte :=
  if i < cap then m.read i else 0

/-- Bytes i to i + n − 1 of a buffer. -/
def Memory.load (cap : Nat) (m : Memory) (i n : Nat) : List Byte :=
  (List.range n).map (fun k => Memory.loadByte cap m (i + k))

/-- Store bytes from index i on: bytes at or above the capacity ignore writes (10_state.md R33, R34). -/
def Memory.store (cap : Nat) (m : Memory) (i : Nat) (bs : List Byte) : Memory :=
  m.write i (bs.take (cap - i))

/-- `pay[i]` (00_scope.md R11, 10_state.md R33). -/
def State.payByte (s : State) (i : Nat) : Byte := Memory.loadByte s.cfg.maxPayload s.pay i

/-- `env[i]` (00_scope.md R11, 10_state.md R34). -/
def State.envByte (s : State) (i : Nat) : Byte := Memory.loadByte s.cfg.maxEnvelope s.env i

/-- `PayRead(i, n)` (00_scope.md R11). -/
def State.payRead (s : State) (i n : Nat) : List Byte := Memory.load s.cfg.maxPayload s.pay i n

/-- `PayWrite(i, bs)` (00_scope.md R11). -/
def State.payWrite (i : Nat) (bs : List Byte) (s : State) : State :=
  { s with pay := Memory.store s.cfg.maxPayload s.pay i bs }

/-- `env[a..a+n)` (00_scope.md R9, R11). -/
def State.envRead (s : State) (a n : Nat) : List Byte := Memory.load s.cfg.maxEnvelope s.env a n

/-- `env[a..a+len(bs)) <- bs` (00_scope.md R11). -/
def State.envWrite (a : Nat) (bs : List Byte) (s : State) : State :=
  { s with env := Memory.store s.cfg.maxEnvelope s.env a bs }

/-- `MemRead(a, n)`: unBE of env[a..a+n) (00_scope.md R11). -/
def State.memRead (s : State) (a n : Nat) : Nat := unBE (s.envRead a n)

/-- Issue of command word w (10_state.md R36). INTEGRITY_OK and HAZ are unchanged, and w is not decoded. -/
def State.issue (w : Word) (s : State) : State :=
  { s with pend := some w, done := false, err := 0 }

/-- `Complete(e)`: how every command ends, with or without an error (10_state.md R38). It stands where
another machine takes an exception: FRMCODEC has no trap, no vector and no return (60_exceptions.md R102, R104). -/
def State.complete (e : ErrorCode) (s : State) : State :=
  { s with err := e.code, done := true, pend := none }

/-- The failure of ENCODE, ENCODE_KEEP, DECODE and VERIFY: INTEGRITY_OK <- 0, then `raise e`
(41_frame_codec.md R77 to R79, 42_checksum.md R89). -/
def State.failWith (e : ErrorCode) (s : State) : State :=
  { s with integrityOk := false }.complete e

/-- A buffer of the given capacity that holds given bytes. -/
def Memory.ofFn (cap : Nat) (f : Nat → Byte) : Memory :=
  Memory.cells 0 ((List.range cap).map f)

/-- The assertion of reset, in any state (70_reset_and_hazards.md R112, R113). The buffers take fresh free
values (log 4). The host's script, the schedule, the words already read and the configuration stay (log 17). -/
def State.assertReset (s : State) : State :=
  { State.resetWith s.cfg (Memory.ofFn s.cfg.maxPayload (Config.payInit s.draws))
      (Memory.ofFn s.cfg.maxEnvelope (Config.envInit s.draws)) with
    script := s.script, schedule := s.schedule, reads := s.reads, draws := s.draws + 1 }

/-- Whose turn the next step is. An exhausted schedule gives it to the engine while a command is
pending, else to the host. DESIGN CHOICE (log 1): the spec leaves the engine step unscheduled
(70_reset_and_hazards.md R118), and every interleaving is some schedule. -/
def State.turn (s : State) : Agent :=
  match s.schedule with
  | a :: _ => a
  | [] => if s.busy then .engine else .host

/-- The state with the turn about to be taken removed from the schedule. -/
def State.takeTurn (s : State) : State := { s with schedule := s.schedule.tail }

end Sys2Proof.Machine
end

