-- ==== Sys2Proof/Machine/Operands.lean ====
section
/-! DEFINITION. The operands of commands and transactions: FrameControl and sequenceControl fields, identifiers, Body and Envelope, the checksum algorithms, the register map. -/

namespace Sys2Proof.Machine

/-! ### Bit fields of a 16-bit value (40_frame_control.md) -/

/-- A field of a u16: its low bit and its width (40_frame_control.md R66, R74). -/
structure HalfField where
  lo : Nat
  width : Nat
deriving DecidableEq, Repr

/-- The value of a field: (v >> lo) & (2^w − 1) (40_frame_control.md R67). -/
def HalfField.get (f : HalfField) (v : Half) : Nat := v.toNat / 2 ^ f.lo % 2 ^ f.width

/-- The in-place mask of a field (40_frame_control.md R66). -/
def HalfField.mask (f : HalfField) : Half := BitVec.ofNat 16 ((2 ^ f.width - 1) * 2 ^ f.lo)

/-- (v & ~m) | ((x & (2^w − 1)) << lo) (40_frame_control.md R68). -/
def HalfField.set (f : HalfField) (v : Half) (x : Nat) : Half :=
  (v &&& ~~~ f.mask) ||| BitVec.ofNat 16 (x % 2 ^ f.width * 2 ^ f.lo)

/-- The FrameControl fields (40_frame_control.md R65). The rule's table lists eleven, though the text
says ten: DEDUCED (log 12), the table. -/
inductive FcField where
  | protocolVersion | type | subtype | toStation | toAP | moreFragments | retry | powerManagement
  | moreData | privacy | order
deriving DecidableEq, Repr

/-- The accessor table of 40_frame_control.md R66. -/
def FcField.place : FcField → HalfField
  | .protocolVersion => ⟨0, 2⟩
  | .type => ⟨2, 2⟩
  | .subtype => ⟨4, 4⟩
  | .toStation => ⟨8, 1⟩
  | .toAP => ⟨9, 1⟩
  | .moreFragments => ⟨10, 1⟩
  | .retry => ⟨11, 1⟩
  | .powerManagement => ⟨12, 1⟩
  | .moreData => ⟨13, 1⟩
  | .privacy => ⟨14, 1⟩
  | .order => ⟨15, 1⟩

/-- `FC_Get(fc, F)` (40_frame_control.md R67). -/
def fcGet (fc : Half) (f : FcField) : Nat := f.place.get fc

/-- `FC_Set(fc, F, v)` (40_frame_control.md R68). -/
def fcSet (fc : Half) (f : FcField) (v : Nat) : Half := f.place.set fc v

/-- `FC_Pack` (40_frame_control.md R69): wider values are truncated. -/
def fcPack (pv ty st toSta toAP mf rt pm md pr od : Nat) : Half :=
  BitVec.ofNat 16 (pv % 4) ||| BitVec.ofNat 16 (ty % 4) <<< 2 ||| BitVec.ofNat 16 (st % 16) <<< 4
    ||| BitVec.ofNat 16 (toSta % 2) <<< 8 ||| BitVec.ofNat 16 (toAP % 2) <<< 9
    ||| BitVec.ofNat 16 (mf % 2) <<< 10 ||| BitVec.ofNat 16 (rt % 2) <<< 11
    ||| BitVec.ofNat 16 (pm % 2) <<< 12 ||| BitVec.ofNat 16 (md % 2) <<< 13
    ||| BitVec.ofNat 16 (pr % 2) <<< 14 ||| BitVec.ofNat 16 (od % 2) <<< 15

/-- `FC_Wire(fc)` = BE_2(fc) (40_frame_control.md R70). -/
def fcWire (fc : Half) : List Byte := be 2 fc.toNat

/-- `FC_Unwire(b0, b1)` = unBE([b0, b1]) (40_frame_control.md R70). -/
def fcUnwire (b0 b1 : Byte) : Half := BitVec.ofNat 16 (unBE [b0, b1])

/-- fragmentNumber = seq[3:0] (40_frame_control.md R74). No block rule reads it. -/
def fragmentNumber : HalfField := ⟨0, 4⟩

/-- sequenceNumber = seq[15:4] (40_frame_control.md R74). No block rule reads it. -/
def sequenceNumber : HalfField := ⟨4, 12⟩

/-! ### Station identifiers (10_state.md R31) -/

/-- The six bytes in wire order. -/
def StationId.bytes (i : StationId) : List Byte := [i.id0, i.id1, i.id2, i.id3, i.id4, i.id5]

/-- `<NAME>_0`: bytes 0 to 3, byte 0 in bits 31:24. -/
def StationId.word0 (i : StationId) : Word := i.id0 ++ i.id1 ++ i.id2 ++ i.id3

/-- `<NAME>_1`: bytes 4 and 5 in bits 31:16, bits 15:0 read as zero. -/
def StationId.word1 (i : StationId) : Word := i.id4 ++ i.id5 ++ 0#16

/-- A host write of `<NAME>_0`. -/
def StationId.setWord0 (v : Word) (i : StationId) : StationId :=
  { i with id0 := v.extractLsb' 24 8, id1 := v.extractLsb' 16 8, id2 := v.extractLsb' 8 8, id3 := v.extractLsb' 0 8 }

/-- A host write of `<NAME>_1`: bits 15:0 are ignored. -/
def StationId.setWord1 (v : Word) (i : StationId) : StationId :=
  { i with id4 := v.extractLsb' 24 8, id5 := v.extractLsb' 16 8 }

/-- The identifier in env[a..a+6), copied verbatim (41_frame_codec.md R79). -/
def State.envId (s : State) (a : Nat) : StationId :=
  ⟨s.envByte a, s.envByte (a + 1), s.envByte (a + 2), s.envByte (a + 3), s.envByte (a + 4), s.envByte (a + 5)⟩

/-! ### Body and envelope (41_frame_codec.md) -/

/-- `Body()`: frame header, payload length prefix and payload (41_frame_codec.md R75). -/
def State.body (s : State) : List Byte :=
  fcWire s.fc ++ be 2 s.duration.toNat ++ s.dest.bytes ++ s.src.bytes ++ s.bssid.bytes
    ++ be 2 s.seqCtrl.toNat ++ s.addr4.bytes ++ be 2 s.plen.toNat ++ s.payRead 0 s.plen.toNat

/-- `Envelope(t)`: the envelope for the current registers with trailer value t (41_frame_codec.md R76). -/
def State.envelope (s : State) (t : Word) : List Byte :=
  be 4 s.startMarker.toNat ++ s.body ++ be 4 t.toNat ++ be 4 s.endMarker.toNat

/-! ### Checksums (42_checksum.md) -/

/-- One round of the one-at-a-time hash (42_checksum.md R84). -/
def oaatRound (h : Word) (b : Byte) : Word :=
  let h := h + b.setWidth 32
  let h := h + (h <<< 10)
  h ^^^ (h >>> 6)

/-- The final mixing of the one-at-a-time hash (42_checksum.md R84). -/
def oaatFinish (h : Word) : Word :=
  let h := h + (h <<< 3)
  let h := h ^^^ (h >>> 11)
  h + (h <<< 15)

/-- `OAAT(s)`, the one-at-a-time hash (42_checksum.md R84). PRESUMED (log 13) by the spec itself: the
definition is the standard Jenkins hash, from general knowledge. -/
def oaat (bs : List Byte) : Word := oaatFinish (bs.foldl oaatRound 0)

/-- `XOR8(s)`, the byte-XOR fold (42_checksum.md R85). -/
def xor8 (bs : List Byte) : Word := bs.foldl (fun h b => h ^^^ b.setWidth 32) 0

/-- `CK(s)`: CONFIG.ALG selects the algorithm (42_checksum.md R86, R87). -/
def State.ck (s : State) (bs : List Byte) : Word := if s.alg then xor8 bs else oaat bs

/-! ### The register map (10_state.md R16) -/

/-- The registers by offset (10_state.md R16). -/
def Reg.map : List (Nat × Reg) :=
  [(0x000, .id), (0x004, .param), (0x008, .config), (0x00C, .status), (0x010, .cmd),
   (0x014, .startMarker), (0x018, .endMarker), (0x01C, .envLen), (0x020, .fc), (0x024, .duration),
   (0x028, .seqCtrl), (0x02C, .plen)]
  ++ [(0x030, .fcs), (0x034, .chkResult), (0x038, .skipStart), (0x03C, .skipEnd),
   (0x040, .dest0), (0x044, .dest1), (0x048, .src0), (0x04C, .src1),
   (0x050, .bssid0), (0x054, .bssid1), (0x058, .addr40), (0x05C, .addr41)]

/-- What an offset selects: a register, a buffer word (PAYLOAD_BUF at 0x1000, ENV_BUF at 0x2000), or nothing. -/
def Target.ofOffset (off : Nat) : Target :=
  match Reg.map.lookup off with
  | some r => .reg r
  | none =>
    if 0x1000 ≤ off ∧ off < 0x2000 then .payWord ((off - 0x1000) / 4)
    else if 0x2000 ≤ off ∧ off < 0x3000 then .envWord ((off - 0x2000) / 4)
    else .reserved

/-- An offset of a transaction: word-aligned and inside the window (20_memory.md R41). -/
def legalOffset (off : Nat) : Bool := decide (off ≤ 0x3FFC ∧ off % 4 = 0)

/-- ID reads the ASCII bytes "FRM1" (10_state.md R17). -/
def idWord : Word := 0x46524D31

/-- PARAM: MAX_ENVELOPE in bits 31:16, MAX_PAYLOAD in bits 15:0 (10_state.md R18). -/
def paramWord (c : Config) : Word := BitVec.ofNat 16 c.maxEnvelope ++ BitVec.ofNat 16 c.maxPayload

/-- CONFIG: ALG in bit 0, IE in bit 1, the rest 0 (10_state.md R19). -/
def State.configWord (s : State) : Word := 0#30 ++ BitVec.ofBool s.ie ++ BitVec.ofBool s.alg

/-- The word of four bytes, the first in bits 31:24 (20_memory.md R45). -/
def laneWord (f : Nat → Byte) (k : Nat) : Word := f (4 * k) ++ f (4 * k + 1) ++ f (4 * k + 2) ++ f (4 * k + 3)

/-- The four bytes of a word, bits 31:24 first (20_memory.md R45). -/
def laneBytes (v : Word) : List Byte :=
  [v.extractLsb' 24 8, v.extractLsb' 16 8, v.extractLsb' 8 8, v.extractLsb' 0 8]

end Sys2Proof.Machine
end

