-- ==== Sys2Proof/Machine/Codec.lean ====
section
/-! DEFINITION. The frame and envelope codec commands: ENCODE, ENCODE_KEEP, DECODE (41_frame_codec.md). -/

namespace Sys2Proof.Machine

/-- PLEN > MAX_PAYLOAD, the one error of ENCODE, ENCODE_KEEP and VERIFY (60_exceptions.md R101). -/
def State.oversize (s : State) : Bool := decide (s.cfg.maxPayload < s.plen.toNat)

/-- Write the envelope with trailer t to ENV_BUF and its length 44 + L to ENV_LEN (41_frame_codec.md R77, R78). -/
def State.emit (t : Word) (s : State) : State :=
  { s.envWrite 0 (s.envelope t) with envLen := BitVec.ofNat 16 (Config.envOverhead + s.plen.toNat) }

/-- ENCODE (41_frame_codec.md R77). -/
def execEncode (s : State) : Host.Outcome State Fault Refusal :=
  if s.oversize then .next (s.failWith .payloadTooLarge)
  else
    let c := s.ck s.body
    .next ({ s.emit c with fcs := c, chkResult := c, integrityOk := true }.complete .ok)

/-- ENCODE_KEEP (41_frame_codec.md R78). -/
def execEncodeKeep (s : State) : Host.Outcome State Fault Refusal :=
  if s.oversize then .next (s.failWith .payloadTooLarge)
  else
    let c := s.ck s.body
    .next ({ s.emit s.fcs with chkResult := c, integrityOk := decide (c = s.fcs) }.complete .ok)

/-- The payload length prefix of the envelope in ENV_BUF, MemRead(34, 2) (41_frame_codec.md R79). -/
def State.prefixLen (s : State) : Nat := s.memRead 34 2

/-- The first check of DECODE that fails, in the order of 41_frame_codec.md R79. -/
def State.decodeError (s : State) : Option ErrorCode :=
  let n := s.envLen.toNat
  let l := s.prefixLen
  if n < 44 then some .tooShort
  else if s.memRead 0 4 ≠ s.startMarker.toNat then some .unknownFrame
  else if s.cfg.maxPayload < l then some .payloadTooLarge
  else if n < 44 + l then some .tooShort
  else if 44 + l < n then some .lengthMismatch
  else if s.memRead (40 + l) 4 ≠ s.endMarker.toNat then some .unknownFrame
  else none

/-- The frame of the envelope in ENV_BUF, with payload length l, in the registers and PAYLOAD_BUF
(41_frame_codec.md R79). -/
def State.loadFrame (l : Nat) (s : State) : State :=
  { s.payWrite 0 (s.envRead 36 l) with
    fc := fcUnwire (s.envByte 4) (s.envByte 5)
    duration := BitVec.ofNat 16 (s.memRead 6 2)
    dest := s.envId 8
    src := s.envId 14
    bssid := s.envId 20
    seqCtrl := BitVec.ofNat 16 (s.memRead 26 2)
    addr4 := s.envId 28
    plen := BitVec.ofNat 16 l }

/-- DECODE (41_frame_codec.md R79). -/
def execDecode (s : State) : Host.Outcome State Fault Refusal :=
  match s.decodeError with
  | some e => .next (s.failWith e)
  | none =>
    let l := s.prefixLen
    let c := s.ck (s.envRead 4 (32 + l))
    let stored : Word := BitVec.ofNat 32 (s.memRead (36 + l) 4)
    .next ({ s.loadFrame l with fcs := stored, chkResult := c, integrityOk := decide (c = stored) }.complete .ok)

end Sys2Proof.Machine
end

