-- ==== Sys2Proof/Machine/Checksum.lean ====
section
/-! DEFINITION. The checksum commands: VERIFY and CHECKSUM (42_checksum.md). -/

namespace Sys2Proof.Machine

/-- VERIFY (42_checksum.md R89). -/
def execVerify (s : State) : Host.Outcome State Fault Refusal :=
  if s.oversize then .next (s.failWith .payloadTooLarge)
  else
    let c := s.ck s.body
    .next ({ s with chkResult := c, integrityOk := decide (c = s.fcs) }.complete .ok)

/-- The range of CHECKSUM is inside the buffer's valid bytes: n ≤ MAX_ENVELOPE and s + e ≤ n, the sum
without wrap (42_checksum.md R88). -/
def State.goodRange (s : State) : Bool :=
  decide (s.envLen.toNat ≤ s.cfg.maxEnvelope ∧ s.skipStart.toNat + s.skipEnd.toNat ≤ s.envLen.toNat)

/-- CHECKSUM over env[s..n−e) (42_checksum.md R88). -/
def execChecksum (s : State) : Host.Outcome State Fault Refusal :=
  if s.goodRange then
    let a := s.skipStart.toNat
    .next ({ s with chkResult := s.ck (s.envRead a (s.envLen.toNat - s.skipEnd.toNat - a)) }.complete .ok)
  else .next (s.complete .badRange)

end Sys2Proof.Machine
end

