-- ==== Sys2Proof/Machine/Control.lean ====
section
/-! DEFINITION. The control commands NOP and CLEAR, and the reserved command words (43_control.md). -/

namespace Sys2Proof.Machine

/-- NOP (43_control.md R93). -/
def execNop (s : State) : Host.Outcome State Fault Refusal := .next (s.complete .ok)

/-- CLEAR (43_control.md R94): the frame state and both buffers are zeroed. CONFIG, the markers and HAZ stay. -/
def execClear (s : State) : Host.Outcome State Fault Refusal :=
  .next ({ s with
    fc := 0, duration := 0, seqCtrl := 0, plen := 0
    envLen := 0, fcs := 0, chkResult := 0
    skipStart := 0, skipEnd := 0
    dest := .zero, src := .zero, bssid := .zero, addr4 := .zero
    pay := Memory.store s.cfg.maxPayload s.pay 0 (List.replicate s.cfg.maxPayload 0)
    env := Memory.store s.cfg.maxEnvelope s.env 0 (List.replicate s.cfg.maxEnvelope 0)
    integrityOk := false }.complete .ok)

/-- A reserved command word (43_control.md R95): BAD_COMMAND, whatever the word, and no other effect. -/
def execReserved (_w : Word) (s : State) : Host.Outcome State Fault Refusal := .next (s.complete .badCommand)

end Sys2Proof.Machine
end

