-- ==== Sys2Proof/Machine/Dispatch.lean ====
section
/-! DEFINITION. One arm per command: its meaning. -/

namespace Sys2Proof.Machine

/-- The execution of a whole command, one indivisible transition that ends in Complete(e) (10_state.md R37). -/
def exec (i : Instr) (s : State) : Host.Outcome State Fault Refusal :=
  match i with
  | .nop => Sys2Proof.Machine.execNop s
  | .encode => Sys2Proof.Machine.execEncode s
  | .encodeKeep => Sys2Proof.Machine.execEncodeKeep s
  | .decode => Sys2Proof.Machine.execDecode s
  | .verify => Sys2Proof.Machine.execVerify s
  | .checksum => Sys2Proof.Machine.execChecksum s
  | .clear => Sys2Proof.Machine.execClear s
  | .reserved w => Sys2Proof.Machine.execReserved w s

end Sys2Proof.Machine
end

