-- ==== Sys2Proof/WellFormed.lean ====
section
/-! DEFINITION. Which terms of `Instr` stand for a command word: a reserved word is none of the seven defined ones. -/

namespace Sys2Proof

/-- "The seven defined words are 0x00000000 to 0x00000006, and every other word is reserved"
(30_encoding.md R58). -/
def Instr.wellFormed : Instr → Bool
  | .nop => true
  | .encode => true
  | .encodeKeep => true
  | .decode => true
  | .verify => true
  | .checksum => true
  | .clear => true
  | .reserved w => decide (7 ≤ w.toNat)

end Sys2Proof
end

