-- ==== Sys2Proof/Decode.lean ====
section
/-! DEFINITION. The command decoder, total on words (30_encoding.md R58) and on byte lists, and the encoder beside it. -/

namespace Sys2Proof

/-- The OP field of a command word, bits 3:0 (30_encoding.md R57). -/
def opField (w : Word) : BitVec 4 := w.extractLsb' 0 4

/-- The RSV field of a command word, bits 31:4 (30_encoding.md R57). -/
def rsvField (w : Word) : BitVec 28 := w.extractLsb' 4 28

/-- The opcode map of 30_encoding.md R58: "every 32-bit word has exactly one row". -/
def decodeWord (w : Word) : Instr :=
  if rsvField w = 0 then
    match (opField w).toNat with
    | 0 => .nop
    | 1 => .encode
    | 2 => .encodeKeep
    | 3 => .decode
    | 4 => .verify
    | 5 => .checksum
    | 6 => .clear
    | _ => .reserved w
  else .reserved w

/-- Why a byte list is no command: "the command word is always 32 bits" (30_encoding.md R57). -/
inductive DecodeError where
  /-- Fewer than four bytes. -/
  | tooFewBytes
  /-- More than four bytes: there is no longer form and no prefix (R57, R64). -/
  | tooManyBytes
deriving DecidableEq, Repr

/-- The four bytes of a bus word, by lane: bits 31:24 first (20_memory.md R45).
DEDUCED (log 11), safe: the spec gives a command word no byte order, since CMD is written as a whole word. -/
def wordBytes (w : Word) : List Byte :=
  [w.extractLsb' 24 8, w.extractLsb' 16 8, w.extractLsb' 8 8, w.extractLsb' 0 8]

/-- The word of four bytes, the inverse of `wordBytes`. -/
def bytesWord (b0 b1 b2 b3 : Byte) : Word := b0 ++ b1 ++ b2 ++ b3

/-- The command a byte list holds, or the reason it holds none. -/
def decode : List Byte → Except DecodeError Instr
  | [b0, b1, b2, b3] => .ok (decodeWord (bytesWord b0 b1 b2 b3))
  | _ :: _ :: _ :: _ :: _ :: _ => .error .tooManyBytes
  | _ => .error .tooFewBytes

/-- The command word of a command (30_encoding.md R58). -/
def encode : Instr → Word
  | .nop => 0x00000000
  | .encode => 0x00000001
  | .encodeKeep => 0x00000002
  | .decode => 0x00000003
  | .verify => 0x00000004
  | .checksum => 0x00000005
  | .clear => 0x00000006
  | .reserved w => w

/-- The word that the host's numbering of the opcode table gives: `nbits` bits of `w`, zeros above
(a command word is 32 bits, 30_encoding.md R57). -/
def tableWord (nbits w : Nat) : Word := BitVec.ofNat 32 (w % 2 ^ nbits)

/-- The command the decoder reads from an opcode-table word; none where the word is wider than 32 bits. -/
def decodeTableWord (nbits w : Nat) : Option Instr :=
  if nbits ≤ 32 then
    match decode (wordBytes (tableWord nbits w)) with
    | .ok i => some i
    | .error _ => none
  else none

end Sys2Proof
end

