-- ==== Sys2Proof/Machine/HostBus.lean ====
section
/-! DEFINITION. The host's turn: read and write transactions, idle and busy, WAIT and reset (20_memory.md, 70_reset_and_hazards.md). -/

namespace Sys2Proof.Machine

/-- The word a register reads as while idle: its implemented bits, RAZ bits 0, CMD 0 (20_memory.md R42, 10_state.md R17 to R31). -/
def State.regWord (s : State) : Reg → Word
  | .id => idWord
  | .param => paramWord s.cfg
  | .config => s.configWord
  | .status => s.statusWord
  | .cmd => 0
  | .startMarker => s.startMarker
  | .endMarker => s.endMarker
  | .envLen => s.envLen.setWidth 32
  | .fc => s.fc.setWidth 32
  | .duration => s.duration.setWidth 32
  | .seqCtrl => s.seqCtrl.setWidth 32
  | .plen => s.plen.setWidth 32
  | .fcs => s.fcs
  | .chkResult => s.chkResult
  | .skipStart => s.skipStart.setWidth 32
  | .skipEnd => s.skipEnd.setWidth 32
  | .dest0 => s.dest.word0
  | .dest1 => s.dest.word1
  | .src0 => s.src.word0
  | .src1 => s.src.word1
  | .bssid0 => s.bssid.word0
  | .bssid1 => s.bssid.word1
  | .addr40 => s.addr4.word0
  | .addr41 => s.addr4.word1

/-- The word a target reads as while idle (20_memory.md R42, R45). -/
def State.targetWord (s : State) : Target → Word
  | .reg r => s.regWord r
  | .payWord k => laneWord s.payByte k
  | .envWord k => laneWord s.envByte k
  | .reserved => 0

/-- A host write to a register while idle (20_memory.md R43): implemented bits are stored, read-only
registers ignore it, STATUS clears its W1C bits, CMD issues the word. -/
def State.writeReg (v : Word) (s : State) : Reg → State
  | .id => s
  | .param => s
  | .config => { s with alg := v.getLsbD 0, ie := v.getLsbD 1 }
  | .status => s.writeStatus v
  | .cmd => s.issue v
  | .startMarker => { s with startMarker := v }
  | .endMarker => { s with endMarker := v }
  | .envLen => { s with envLen := v.setWidth 16 }
  | .fc => { s with fc := v.setWidth 16 }
  | .duration => { s with duration := v.setWidth 16 }
  | .seqCtrl => { s with seqCtrl := v.setWidth 16 }
  | .plen => { s with plen := v.setWidth 16 }
  | .fcs => { s with fcs := v }
  | .chkResult => s
  | .skipStart => { s with skipStart := v.setWidth 16 }
  | .skipEnd => { s with skipEnd := v.setWidth 16 }
  | .dest0 => { s with dest := s.dest.setWord0 v }
  | .dest1 => { s with dest := s.dest.setWord1 v }
  | .src0 => { s with src := s.src.setWord0 v }
  | .src1 => { s with src := s.src.setWord1 v }
  | .bssid0 => { s with bssid := s.bssid.setWord0 v }
  | .bssid1 => { s with bssid := s.bssid.setWord1 v }
  | .addr40 => { s with addr4 := s.addr4.setWord0 v }
  | .addr41 => { s with addr4 := s.addr4.setWord1 v }

/-- A host write to a target while idle (20_memory.md R43): lanes at or above a buffer's capacity are ignored. -/
def State.writeTarget (v : Word) (s : State) : Target → State
  | .reg r => s.writeReg v r
  | .payWord k => s.payWrite (4 * k) (laneBytes v)
  | .envWord k => s.envWrite (4 * k) (laneBytes v)
  | .reserved => s

/-- The targets whose reads have their value also while BUSY = 1 (70_reset_and_hazards.md R116). -/
def Target.stableWhileBusy : Target → Bool
  | .reg .id => true
  | .reg .param => true
  | .reg .config => true
  | .reg .status => true
  | .reg .startMarker => true
  | .reg .endMarker => true
  | .reg .cmd => true
  | .reserved => true
  | .reg _ => false
  | .payWord _ => false
  | .envWord _ => false

/-- A word returned to the host. -/
def State.returnWord (w : Word) (s : State) : State := { s with reads := w :: s.reads }

/-- An unspecified word returned to the host: a fresh draw, no other effect (70_reset_and_hazards.md R116, log 5). -/
def State.returnDraw (s : State) : State :=
  { s with reads := Config.busyRead s.draws :: s.reads, draws := s.draws + 1 }

/-- `HostRead(off)` (20_memory.md R42; 70_reset_and_hazards.md R116 while busy). -/
def hostRead (off : Nat) (s : State) : Host.Outcome State Fault Refusal :=
  if legalOffset off then
    let t := Target.ofOffset off
    if s.busy && !t.stableWhileBusy then .next s.returnDraw
    else .next (s.returnWord (s.targetWord t))
  else .refused (.notATransaction off)

/-- `HostWrite(off, v)` (20_memory.md R43; 70_reset_and_hazards.md R115 while busy: refused with HAZ <- 1, but for STATUS). -/
def hostWrite (off : Nat) (v : Word) (s : State) : Host.Outcome State Fault Refusal :=
  if legalOffset off then
    let t := Target.ofOffset off
    if s.busy && decide (t ≠ .reg .status) then .next { s with haz := true }
    else .next (s.writeTarget v t)
  else .refused (.notATransaction off)

/-- One poll of `WAIT` (00_scope.md R12): a read of STATUS; while BUSY = 1 the move stays at the head of
the script. DEDUCED (log 9), safe. -/
def hostWait (s : State) : State :=
  { s.returnWord s.statusWord with script := if s.busy then .wait :: s.script else s.script }

/-- The host's turn: its next move, or nothing where its script is empty (log 16). -/
def hostTurn (s : State) : Host.Outcome State Fault Refusal :=
  match s.script with
  | [] => .next s
  | m :: rest =>
    let s' : State := { s with script := rest }
    match m with
    | .read off => hostRead off s'
    | .write off v => hostWrite off v s'
    | .wait => .next (hostWait s')
    | .reset => .next s'.assertReset

/-- `CMD <mnemonic>`: `WR 0x010, <command word>` (00_scope.md R12). -/
def HostMove.cmd (i : Instr) : HostMove := .write 0x010 (encode i)

/-- The command that the engine runs, where one is pending (10_state.md R37). -/
def State.pending (s : State) : Option Instr := s.pend.map decodeWord

end Sys2Proof.Machine
end

