-- ==== Sys2Proof/Machine/Step.lean ====
section
/-! DEFINITION. One step: the engine's turn or the host's. -/

namespace Sys2Proof.Machine

/-- The engine's turn: the pending command, whole, in one transition (10_state.md R37); nothing where none
is pending (60_exceptions.md R111, log 16). -/
def engineTurn (s : State) : Host.Outcome State Fault Refusal :=
  match s.pending with
  | some i => exec i s
  | none => .next s

/-- One step of FRMCODEC: the turn the schedule gives, by the engine or the host (10_state.md R13). -/
def step (s : State) : Host.Outcome State Fault Refusal :=
  match s.turn with
  | .engine => engineTurn s.takeTurn
  | .host => hostTurn s.takeTurn

/-- `s` with the command word `w` issued (10_state.md R36) and the next turn the engine's, so that the next
step runs that command (log 10). -/
def State.withFetchWord (s : State) (nbits w : Nat) : State :=
  { s.issue (tableWord nbits w) with schedule := .engine :: s.schedule }

end Sys2Proof.Machine
end

