-- ==== Sys2Proof/Safety.lean ====
section
/-! DEFINITION. The terms claims use: the state invariant, whose move comes next, what a host move may do while busy, the error DECODE owes, operand agreement. -/

namespace Sys2Proof.Machine

/-- The invariant of the machine: while a command is pending DONE and ERR are 0 (10_state.md R36,
70_reset_and_hazards.md R116); ERR is no reserved code (60_exceptions.md R98); both buffers are in canonical form
and list no byte at or above their capacity (10_state.md R33, R34). -/
structure State.Inv (s : State) : Prop where
  pending_clears : s.busy = true → s.done = false ∧ s.err = 0
  err_le : s.err.toNat ≤ 6
  pay_wf : Memory.wf s.pay
  pay_within : Memory.within s.cfg.maxPayload s.pay
  env_wf : Memory.wf s.env
  env_within : Memory.within s.cfg.maxEnvelope s.env

/-- The next step is the host's, and its move is `m`. -/
def State.HostNext (s : State) (m : HostMove) : Prop := s.turn = .host ∧ s.script.head? = some m

/-- `s` with the host's turn taken off the schedule and its move off the script. -/
def State.afterMove (s : State) : State := { s with schedule := s.schedule.tail, script := s.script.tail }

/-- `k` steps, each with a next state. -/
inductive Steps : Nat → State → State → Prop where
  | zero (s : State) : Steps 0 s s
  | succ {k : Nat} {s t u : State} : step s = .next t → Steps k t u → Steps (k + 1) s u

/-- The values 70_reset_and_hazards.md R112 gives after reset, but for the buffers, which it leaves unspecified. -/
structure State.ResetValues (s : State) : Prop where
  alg : s.alg = false
  ie : s.ie = false
  busy : s.busy = false
  done : s.done = false
  haz : s.haz = false
  integrityOk : s.integrityOk = false
  err : s.err = 0
  pend : s.pend = none
  startMarker : s.startMarker = s.cfg.startMarkerReset
  endMarker : s.endMarker = s.cfg.endMarkerReset
  envLen : s.envLen = 0
  fc : s.fc = 0
  duration : s.duration = 0
  seqCtrl : s.seqCtrl = 0
  plen : s.plen = 0
  skipStart : s.skipStart = 0
  skipEnd : s.skipEnd = 0
  fcs : s.fcs = 0
  chkResult : s.chkResult = 0
  dest : s.dest = ⟨0, 0, 0, 0, 0, 0⟩
  src : s.src = ⟨0, 0, 0, 0, 0, 0⟩
  bssid : s.bssid = ⟨0, 0, 0, 0, 0, 0⟩
  addr4 : s.addr4 = ⟨0, 0, 0, 0, 0, 0⟩
  irq : s.irq = false

/-- `s`, idle, with a script to run and no schedule: the host moves while nothing is pending, the engine
at once when something is. -/
def State.withScript (s : State) (ms : List HostMove) : State := { s with pend := none, script := ms, schedule := [] }

/-- `s` with a script and a schedule. -/
def State.withTurns (s : State) (ms : List HostMove) (turns : List Agent) : State :=
  { s with script := ms, schedule := turns }

/-- What duty (a) of 70_reset_and_hazards.md R117 lets a host do while BUSY = 1: poll STATUS, write STATUS,
read what R116 gives a value, or assert reset. -/
def HostMove.dutiful : HostMove → Bool
  | .read off => legalOffset off && (Target.ofOffset off).stableWhileBusy
  | .write off _ => decide (off = 0x00C)
  | .wait => true
  | .reset => true

/-- A host move that is a transaction or a poll of the block: no reset, and no offset the window lacks. -/
def HostMove.transaction : HostMove → Bool
  | .read off => legalOffset off
  | .write off _ => legalOffset off
  | .wait => true
  | .reset => false

/-- The error code DECODE owes, as a number: its checks in the order of 41_frame_codec.md R79 and
60_exceptions.md R101, with n = ENV_LEN and L = the length prefix at env[34..36). -/
def State.decodeErrOwed (s : State) : Nat :=
  let n := s.envLen.toNat
  let l := (s.envByte 34).toNat * 256 + (s.envByte 35).toNat
  if n < 44 then 1
  else if s.envRead 0 4 ≠ be 4 s.startMarker.toNat then 2
  else if l > s.cfg.maxPayload then 3
  else if n < 44 + l then 1
  else if n > 44 + l then 4
  else if s.envRead (40 + l) 4 ≠ be 4 s.endMarker.toNat then 2
  else 0

/-- PLEN is within the payload capacity. -/
def State.Fits (s : State) : Prop := s.plen.toNat ≤ s.cfg.maxPayload

/-- `t` is `s` after a failing ENCODE, ENCODE_KEEP, DECODE or VERIFY with error code `e`: "only INTEGRITY_OK <- 0
and the Complete fields change" (41_frame_codec.md R79). -/
def State.failed (s : State) (e : BitVec 4) : State :=
  { s with integrityOk := false, err := e, done := true, pend := none }

/-- Two states agree on the operands that Body() reads and on CONFIG.ALG (41_frame_codec.md R75). -/
structure State.AgreeOnFrame (s u : State) : Prop where
  cfg : s.cfg = u.cfg
  alg : s.alg = u.alg
  fc : s.fc = u.fc
  duration : s.duration = u.duration
  dest : s.dest = u.dest
  src : s.src = u.src
  bssid : s.bssid = u.bssid
  seqCtrl : s.seqCtrl = u.seqCtrl
  addr4 : s.addr4 = u.addr4
  plen : s.plen = u.plen
  pay : ∀ i, i < s.plen.toNat → s.payByte i = u.payByte i

/-- Two states agree on the markers. -/
structure State.AgreeOnMarkers (s u : State) : Prop where
  startMarker : s.startMarker = u.startMarker
  endMarker : s.endMarker = u.endMarker

/-- Two states agree on ENV_LEN, env[0..ENV_LEN) and CONFIG.ALG. -/
structure State.AgreeOnEnvelope (s u : State) : Prop where
  cfg : s.cfg = u.cfg
  alg : s.alg = u.alg
  envLen : s.envLen = u.envLen
  env : ∀ i, i < s.envLen.toNat → s.envByte i = u.envByte i

/-- Two states hold the same frame registers and the same payload bytes below PLEN. -/
structure State.SameFrame (s u : State) : Prop where
  fc : s.fc = u.fc
  duration : s.duration = u.duration
  dest : s.dest = u.dest
  src : s.src = u.src
  bssid : s.bssid = u.bssid
  seqCtrl : s.seqCtrl = u.seqCtrl
  addr4 : s.addr4 = u.addr4
  plen : s.plen = u.plen
  pay : ∀ i, i < s.plen.toNat → s.payByte i = u.payByte i

/-- The accessor table of 40_frame_control.md R66, read off the rule: field, low bit, width, mask in place. -/
def fcTable : List (FcField × Nat × Nat × Half) :=
  [(.protocolVersion, 0, 2, 0x0003), (.type, 2, 2, 0x000C), (.subtype, 4, 4, 0x00F0), (.toStation, 8, 1, 0x0100),
   (.toAP, 9, 1, 0x0200), (.moreFragments, 10, 1, 0x0400), (.retry, 11, 1, 0x0800), (.powerManagement, 12, 1, 0x1000),
   (.moreData, 13, 1, 0x2000), (.privacy, 14, 1, 0x4000), (.order, 15, 1, 0x8000)]

/-- The one-at-a-time hash in natural-number arithmetic modulo 2^32 (42_checksum.md R83, R84): one round. -/
def oaatRoundNat (h b : Nat) : Nat :=
  let h1 := (h + b) % 2 ^ 32
  let h2 := (h1 + h1 * 2 ^ 10) % 2 ^ 32
  h2 ^^^ (h2 / 2 ^ 6)

/-- The one-at-a-time hash in natural-number arithmetic modulo 2^32 (42_checksum.md R83, R84). -/
def oaatNat (bs : List Byte) : Nat :=
  let h := bs.foldl (fun h b => oaatRoundNat h b.toNat) 0
  let h1 := (h + h * 2 ^ 3) % 2 ^ 32
  let h2 := h1 ^^^ (h1 / 2 ^ 11)
  (h2 + h2 * 2 ^ 15) % 2 ^ 32

end Sys2Proof.Machine
end

