-- ==== Sys2Proof/Certificates/Slice0/Obligations.lean ====
section
/-! DEFINITION. The statements about FRMCODEC, from the numbered rules of spec/. -/

open Sys2Proof Sys2Proof.Machine

/-! ### Command words (30_encoding.md) -/

/-- Decode and encode agree, on every well-formed command and on every 32-bit word; a byte list of another
length is no command word (30_encoding.md R57, R58; the byte order of the list is the model's, log 11). -/
def Obligations.CommandWordsDecodeAndEncodeAgree : Prop :=
  (∀ i : Instr, i.wellFormed = true → decode (wordBytes (encode i)) = .ok i)
    ∧ (∀ w : Word, decode (wordBytes w) = .ok (decodeWord w) ∧ (decodeWord w).wellFormed = true
        ∧ encode (decodeWord w) = w)
    ∧ ∀ bs : List Byte, bs.length ≠ 4 → ∃ e, decode bs = .error e

/-- The opcode map of 30_encoding.md R58. -/
def Obligations.OpcodeMapGivesEveryWordOneRow : Prop :=
  decodeWord 0x00000000 = .nop ∧ decodeWord 0x00000001 = .encode ∧ decodeWord 0x00000002 = .encodeKeep
    ∧ decodeWord 0x00000003 = .decode ∧ decodeWord 0x00000004 = .verify ∧ decodeWord 0x00000005 = .checksum
    ∧ decodeWord 0x00000006 = .clear ∧ ∀ w : Word, 7 ≤ w.toNat → decodeWord w = .reserved w

/-- A step at the engine's turn is exec of the command the pending word decodes to (10_state.md R37). Three things
here are the model's choice and no rule of the spec: that turns stand in a schedule, and that an exhausted one gives
the engine the turn while a command is pending (log 1); and that the engine has a turn with nothing pending at all,
whose step answers the same state with that turn taken off (log 16). -/
def Obligations.StepRunsThePendingCommand : Prop :=
  ∀ s : State,
    (∀ w, s.pend = some w → s.turn = .engine → step s = exec (decodeWord w) { s with schedule := s.schedule.tail })
    ∧ (∀ w, s.pend = some w → s.schedule = [] → step s = exec (decodeWord w) s)
    ∧ (s.pend = none → s.turn = .engine → step s = .next { s with schedule := s.schedule.tail })

/-! ### Every command (10_state.md R38, 60_exceptions.md R102) -/

/-- Every command answers a next state that ends in Complete(e); a failing one writes INTEGRITY_OK and the
Complete fields at most. -/
def Obligations.EveryCommandEndsInComplete : Prop :=
  ∀ (i : Instr) (s : State), ∃ t, exec i s = .next t ∧ t.pend = none ∧ t.busy = false ∧ t.done = true
    ∧ (∃ e : ErrorCode, t.err = e.code) ∧ t.err.toNat ≤ 6
    ∧ (t.err ≠ 0 → t = { s with integrityOk := t.integrityOk, err := t.err, done := true, pend := none })

/-- The error each command reports is the first that applies, in the order of 60_exceptions.md R101. -/
def Obligations.CommandsReportTheFirstErrorThatApplies : Prop :=
  ∀ s : State,
    (∃ t, exec .decode s = .next t ∧ t.err.toNat = s.decodeErrOwed)
    ∧ (∃ t, exec .checksum s = .next t ∧ t.err.toNat =
        if s.envLen.toNat > s.cfg.maxPayload + 44 ∨ s.skipStart.toNat + s.skipEnd.toNat > s.envLen.toNat then 5 else 0)
    ∧ (∀ i ∈ [Instr.encode, Instr.encodeKeep, Instr.verify], ∃ t, exec i s = .next t ∧ t.err.toNat =
        if s.plen.toNat > s.cfg.maxPayload then 3 else 0)
    ∧ (∀ w, 7 ≤ w.toNat → ∃ t, exec (decodeWord w) s = .next t ∧ t.err.toNat = 6)
    ∧ (∀ i ∈ [Instr.nop, Instr.clear], ∃ t, exec i s = .next t ∧ t.err = 0)

/-! ### Control commands (43_control.md) -/

/-- NOP (43_control.md R93): only the Complete fields; it clears DONE at issue, sets it at completion, and
raises the interrupt when IE = 1. -/
def Obligations.NopCompletesWithoutEffect : Prop :=
  decodeWord 0x00000000 = .nop
    ∧ ∀ s : State, exec .nop s = .next { s with err := 0, done := true, pend := none }
      ∧ (∀ t, exec .nop s = .next t → t.irq = s.ie)
      ∧ (s.busy = false → s.HostNext (.write 0x010 0) → ∃ t, step s = .next t ∧ t.done = false ∧ t.pend = some 0)

/-- A reserved word (43_control.md R95) completes with BAD_COMMAND and no other effect. -/
def Obligations.ReservedWordCompletesWithBadCommand : Prop :=
  ∀ (w : Word) (s : State),
    exec (.reserved w) s = .next { s with err := 6, done := true, pend := none }
    ∧ ((w.toNat / 16 ≠ 0 ∨ 7 ≤ w.toNat % 16) →
        exec (decodeWord w) s = .next { s with err := 6, done := true, pend := none })

/-- CLEAR (43_control.md R94): the frame state and every byte of both buffers become 0 and nothing else
changes; a following ENCODE gives a 44-byte envelope with an all-zero body, whose integrity code is 0 under
ALG = 0. -/
def Obligations.ClearZeroesTheFrameStateAndBuffers : Prop :=
  decodeWord 0x00000006 = .clear
    ∧ ∀ s : State, ∃ p e : Memory,
      exec .clear s = .next { s with
        fc := 0, duration := 0, seqCtrl := 0, plen := 0, envLen := 0, fcs := 0, chkResult := 0
        skipStart := 0, skipEnd := 0
        dest := ⟨0, 0, 0, 0, 0, 0⟩, src := ⟨0, 0, 0, 0, 0, 0⟩, bssid := ⟨0, 0, 0, 0, 0, 0⟩, addr4 := ⟨0, 0, 0, 0, 0, 0⟩
        pay := p, env := e, integrityOk := false, err := 0, done := true, pend := none }
      ∧ (∀ a, Memory.read p a = if a < s.cfg.maxPayload then 0 else Memory.read s.pay a)
      ∧ (∀ a, Memory.read e a = if a < s.cfg.maxPayload + 44 then 0 else Memory.read s.env a)
      ∧ ∀ t, exec .clear s = .next t → t.body = List.replicate 32 0
          ∧ ∃ u, exec .encode t = .next u ∧ u.envLen = 44 ∧ u.envRead 4 32 = List.replicate 32 0
            ∧ (s.alg = false → u.fcs = 0)

/-! ### Frame and envelope codec (41_frame_codec.md) -/

/-- ENCODE (41_frame_codec.md R77), succeeding and failing, with its frame. -/
def Obligations.EncodeStampsTheFrame : Prop :=
  decodeWord 0x00000001 = .encode
    ∧ ∀ s : State,
      (s.plen.toNat > s.cfg.maxPayload → exec .encode s = .next (s.failed 3))
      ∧ (s.plen.toNat ≤ s.cfg.maxPayload → ∃ e : Memory,
          exec .encode s = .next { s with
            env := e, envLen := BitVec.ofNat 16 (44 + s.plen.toNat), fcs := s.ck s.body, chkResult := s.ck s.body
            integrityOk := true, err := 0, done := true, pend := none }
          ∧ 44 + s.plen.toNat < 2 ^ 16
          ∧ (s.envelope (s.ck s.body)).length = 44 + s.plen.toNat
          ∧ ∀ a, Memory.read e a =
              if a < 44 + s.plen.toNat then (s.envelope (s.ck s.body)).getD a 0 else Memory.read s.env a)

/-- ENCODE_KEEP (41_frame_codec.md R78), succeeding and failing, with its frame. -/
def Obligations.EncodeKeepEmitsFcsAsTheTrailer : Prop :=
  decodeWord 0x00000002 = .encodeKeep
    ∧ ∀ s : State,
      (s.plen.toNat > s.cfg.maxPayload → exec .encodeKeep s = .next (s.failed 3))
      ∧ (s.plen.toNat ≤ s.cfg.maxPayload → ∃ e : Memory,
          exec .encodeKeep s = .next { s with
            env := e, envLen := BitVec.ofNat 16 (44 + s.plen.toNat), chkResult := s.ck s.body
            integrityOk := decide (s.ck s.body = s.fcs), err := 0, done := true, pend := none }
          ∧ (∀ a, Memory.read e a =
              if a < 44 + s.plen.toNat then (s.envelope s.fcs).getD a 0 else Memory.read s.env a))
      ∧ (s.plen.toNat ≤ s.cfg.maxPayload → s.fcs = s.ck s.body → exec .encodeKeep s = exec .encode s)

/-- The envelope that ENCODE and ENCODE_KEEP leave in ENV_BUF has exactly 44 + L bytes and its fields at the
offsets of 30_encoding.md R61; the body the checksum covers is bytes 4 to 36 + L (41_frame_codec.md R75). -/
def Obligations.EnvelopeFieldsStandAtTheirOffsets : Prop :=
  ∀ (s : State) (i : Instr), s.plen.toNat ≤ s.cfg.maxPayload → i = .encode ∨ i = .encodeKeep →
    ∃ t, exec i s = .next t
      ∧ t.envLen.toNat = 44 + s.plen.toNat
      ∧ t.envRead 0 4 = be 4 s.startMarker.toNat
      ∧ t.envRead 4 2 = be 2 s.fc.toNat
      ∧ t.envRead 6 2 = be 2 s.duration.toNat
      ∧ t.envRead 8 6 = s.dest.bytes
      ∧ t.envRead 14 6 = s.src.bytes
      ∧ t.envRead 20 6 = s.bssid.bytes
      ∧ t.envRead 26 2 = be 2 s.seqCtrl.toNat
      ∧ t.envRead 28 6 = s.addr4.bytes
      ∧ t.envRead 34 2 = be 2 s.plen.toNat
      ∧ t.envRead 36 s.plen.toNat = s.payRead 0 s.plen.toNat
      ∧ t.envRead (36 + s.plen.toNat) 4 = be 4 t.fcs.toNat
      ∧ t.envRead (40 + s.plen.toNat) 4 = be 4 s.endMarker.toNat
      ∧ t.chkResult = s.ck (t.envRead 4 (32 + s.plen.toNat))

/-- DECODE (41_frame_codec.md R79): the first check that fails gives its error and nothing else is written but
INTEGRITY_OK <- 0; where none fails, every field of the envelope is written to its register or buffer, and
nothing else. -/
def Obligations.DecodeChecksThenWritesTheFrame : Prop :=
  decodeWord 0x00000003 = .decode
    ∧ ∀ s : State,
      (s.decodeErrOwed ≠ 0 → exec .decode s = .next (s.failed (BitVec.ofNat 4 s.decodeErrOwed)))
      ∧ (s.decodeErrOwed = 0 → ∃ (l : Nat) (p : Memory) (d r b f : StationId),
          exec .decode s = .next { s with
            fc := s.envByte 4 ++ s.envByte 5
            duration := s.envByte 6 ++ s.envByte 7
            dest := d, src := r, bssid := b
            seqCtrl := s.envByte 26 ++ s.envByte 27
            addr4 := f
            plen := s.envByte 34 ++ s.envByte 35
            pay := p
            fcs := s.envByte (36 + l) ++ s.envByte (37 + l) ++ s.envByte (38 + l) ++ s.envByte (39 + l)
            chkResult := s.ck (s.envRead 4 (32 + l))
            integrityOk := decide (s.ck (s.envRead 4 (32 + l))
              = s.envByte (36 + l) ++ s.envByte (37 + l) ++ s.envByte (38 + l) ++ s.envByte (39 + l))
            err := 0, done := true, pend := none }
          ∧ l = (s.envByte 34 ++ s.envByte 35 : Half).toNat ∧ s.envLen.toNat = 44 + l ∧ l ≤ s.cfg.maxPayload
          ∧ d.bytes = s.envRead 8 6 ∧ r.bytes = s.envRead 14 6 ∧ b.bytes = s.envRead 20 6 ∧ f.bytes = s.envRead 28 6
          ∧ ∀ a, Memory.read p a = if a < l then s.envByte (36 + a) else Memory.read s.pay a)

/-- Round trip, encode then decode (41_frame_codec.md R80, which the spec derives from R77 to R79), with ENCODE and
with ENCODE_KEEP. -/
def Obligations.EncodeThenDecodeGivesTheFrameBack : Prop :=
  ∀ s : State, s.busy = false → s.plen.toNat ≤ s.cfg.maxPayload →
    (∃ t u, exec .encode s = .next t ∧ exec .decode t = .next u ∧ u.err = 0 ∧ u.integrityOk = true
      ∧ s.SameFrame u ∧ t.SameFrame u ∧ u.fcs = t.fcs)
    ∧ (∃ t u, exec .encodeKeep s = .next t ∧ exec .decode t = .next u ∧ u.err = 0
      ∧ u.integrityOk = decide (s.fcs = s.ck s.body) ∧ s.SameFrame u ∧ t.SameFrame u ∧ u.fcs = t.fcs ∧ u.fcs = s.fcs)

/-- Round trip, decode then encode (41_frame_codec.md R81, which the spec derives from R78 and R79): ENCODE_KEEP
writes the envelope again, byte for byte, and so does ENCODE when INTEGRITY_OK = 1; else ENCODE replaces the
trailer alone. -/
def Obligations.DecodeThenEncodeRestoresTheEnvelope : Prop :=
  ∀ s t : State, exec .decode s = .next t → t.err = 0 →
    (∃ u, exec .encodeKeep t = .next u ∧ u.envLen = s.envLen ∧ ∀ a, u.envByte a = s.envByte a)
    ∧ (∃ u, exec .encode t = .next u ∧ u.envLen = s.envLen
      ∧ (t.integrityOk = true → ∀ a, u.envByte a = s.envByte a)
      ∧ (t.integrityOk = false → u.envRead (36 + t.plen.toNat) 4 = be 4 (t.ck t.body).toNat
          ∧ ∀ a, (a < 36 + t.plen.toNat ∨ 40 + t.plen.toNat ≤ a) → u.envByte a = s.envByte a))

/-- The codec and the checksum commands read only the operands their rules list (41_frame_codec.md R82,
42_checksum.md R89): states that agree on them get the same results. -/
def Obligations.CommandsReadOnlyTheirOperands : Prop :=
  ∀ s u : State,
    (s.AgreeOnFrame u → s.AgreeOnMarkers u → ∃ t v, exec .encode s = .next t ∧ exec .encode u = .next v
      ∧ t.err = v.err ∧ t.integrityOk = v.integrityOk
      ∧ (t.err = 0 → t.envLen = v.envLen ∧ t.fcs = v.fcs ∧ t.chkResult = v.chkResult
          ∧ ∀ a, a < t.envLen.toNat → t.envByte a = v.envByte a))
    ∧ (s.AgreeOnFrame u → s.AgreeOnMarkers u → s.fcs = u.fcs →
      ∃ t v, exec .encodeKeep s = .next t ∧ exec .encodeKeep u = .next v
      ∧ t.err = v.err ∧ t.integrityOk = v.integrityOk
      ∧ (t.err = 0 → t.envLen = v.envLen ∧ t.chkResult = v.chkResult
          ∧ ∀ a, a < t.envLen.toNat → t.envByte a = v.envByte a))
    ∧ (s.AgreeOnEnvelope u → s.AgreeOnMarkers u → ∃ t v, exec .decode s = .next t ∧ exec .decode u = .next v
      ∧ t.err = v.err ∧ t.integrityOk = v.integrityOk
      ∧ (t.err = 0 → t.SameFrame v ∧ t.fcs = v.fcs ∧ t.chkResult = v.chkResult))
    ∧ (s.AgreeOnFrame u → s.fcs = u.fcs → ∃ t v, exec .verify s = .next t ∧ exec .verify u = .next v
      ∧ t.err = v.err ∧ t.integrityOk = v.integrityOk ∧ (t.err = 0 → t.chkResult = v.chkResult))
    ∧ (s.AgreeOnEnvelope u → s.skipStart = u.skipStart → s.skipEnd = u.skipEnd →
      ∃ t v, exec .checksum s = .next t ∧ exec .checksum u = .next v
      ∧ t.err = v.err ∧ (t.err = 0 → t.chkResult = v.chkResult))

/-! ### Checksums (42_checksum.md) -/

/-- VERIFY (42_checksum.md R89): pseudocode, error, and its agreement with the ENCODE or DECODE before it. -/
def Obligations.VerifyComparesTheStoredCode : Prop :=
  decodeWord 0x00000004 = .verify
    ∧ ∀ s : State,
      (s.plen.toNat > s.cfg.maxPayload → exec .verify s = .next (s.failed 3))
      ∧ (s.plen.toNat ≤ s.cfg.maxPayload → exec .verify s = .next { s with
          chkResult := s.ck s.body, integrityOk := decide (s.ck s.body = s.fcs), err := 0, done := true, pend := none })
      ∧ (∀ t, exec .encode s = .next t → t.err = 0 → ∃ u, exec .verify t = .next u ∧ u.integrityOk = true)
      ∧ (∀ t, exec .decode s = .next t → t.err = 0 → ∃ u, exec .verify t = .next u
          ∧ u.integrityOk = t.integrityOk ∧ u.chkResult = t.chkResult)

/-- CHECKSUM (42_checksum.md R88): pseudocode and error, the sum of the skips taken without wrap; an empty
range gives 0; skips 4 and 8 on the envelope of an ENCODE give its integrity code. CK, here and in every other
command, is XOR8 where CONFIG.ALG is 1 and OAAT where it is 0 (42_checksum.md R86, R87). -/
def Obligations.ChecksumCoversTheRangeBetweenTheSkips : Prop :=
  decodeWord 0x00000005 = .checksum
    ∧ (∀ (s : State) (bs : List Byte), (s.alg = true → s.ck bs = xor8 bs) ∧ (s.alg = false → s.ck bs = oaat bs))
    ∧ ∀ s : State,
      (s.envLen.toNat > s.cfg.maxPayload + 44 ∨ s.skipStart.toNat + s.skipEnd.toNat > s.envLen.toNat →
        exec .checksum s = .next { s with err := 5, done := true, pend := none })
      ∧ (s.envLen.toNat ≤ s.cfg.maxPayload + 44 → s.skipStart.toNat + s.skipEnd.toNat ≤ s.envLen.toNat →
        exec .checksum s = .next { s with
          chkResult := s.ck (((s.envRead 0 s.envLen.toNat).drop s.skipStart.toNat).take
            (s.envLen.toNat - s.skipEnd.toNat - s.skipStart.toNat))
          err := 0, done := true, pend := none })
      ∧ (s.envLen.toNat ≤ s.cfg.maxPayload + 44 → s.skipStart.toNat + s.skipEnd.toNat = s.envLen.toNat →
        ∃ t, exec .checksum s = .next t ∧ t.chkResult = 0)
      ∧ (s.skipStart = 4 → s.skipEnd = 8 → ∀ t, exec .encode s = .next t → t.err = 0 →
        ∃ u, exec .checksum t = .next u ∧ u.err = 0 ∧ u.chkResult = t.fcs)

/-- A stored integrity code other than CK(Body()) is always reported and the right one never, by VERIFY and by
a DECODE of the envelope that carries it (42_checksum.md R91, which the spec derives from R89). -/
def Obligations.EveryWrongTrailerIsReported : Prop :=
  ∀ (s : State) (f : Word), s.plen.toNat ≤ s.cfg.maxPayload →
    (∃ t, exec .verify { s with fcs := f } = .next t ∧ (t.integrityOk = true ↔ f = s.ck s.body))
    ∧ (∃ t u, exec .encodeKeep { s with fcs := f } = .next t ∧ exec .decode t = .next u
        ∧ u.err = 0 ∧ (u.integrityOk = true ↔ f = s.ck s.body))

/-- The one-at-a-time hash of the model is the pseudocode of 42_checksum.md R84 in natural-number arithmetic
modulo 2^32 (R83), and zero bytes leave it at 0. That this is the hash meant is the spec's presumption (log 13). -/
def Obligations.OaatIsTheHashModuloTwoToThe32 : Prop :=
  (∀ bs : List Byte, (oaat bs).toNat = oaatNat bs)
    ∧ (∀ (n : Nat) (bs : List Byte), oaat (List.replicate n 0 ++ bs) = oaat bs)
    ∧ (∀ n : Nat, oaat (List.replicate n 0) = 0)
    ∧ oaat [0x61] = 0xCA2E9442 ∧ oaat [0x48, 0x65, 0x6C, 0x6C, 0x6F] = 0x715CE7EC

/-- The byte-XOR fold (42_checksum.md R85, "the reading is the spec's own"): its recursion, its range, and that
order and equal pairs do not change it. -/
def Obligations.Xor8FoldsBytesInAnyOrder : Prop :=
  xor8 [] = 0
    ∧ (∀ (bs : List Byte) (b : Byte), xor8 (bs ++ [b]) = xor8 bs ^^^ b.setWidth 32)
    ∧ (∀ bs : List Byte, (xor8 bs).toNat ≤ 0xFF)
    ∧ (∀ bs cs : List Byte, bs.Perm cs → xor8 bs = xor8 cs)
    ∧ (∀ (bs : List Byte) (b : Byte), xor8 (b :: b :: bs) = xor8 bs)
    ∧ xor8 [0x48, 0x65, 0x6C, 0x6C, 0x6F] = 0x00000042

/-! ### Byte order and bit fields (00_scope.md, 40_frame_control.md) -/

/-- BE_n puts the most significant byte first and unBE is its inverse (00_scope.md R10). -/
def Obligations.BigEndianEncodingIsInvertible : Prop :=
  (∀ n v : Nat, v < 2 ^ (8 * n) → (be n v).length = n ∧ unBE (be n v) = v
      ∧ ∀ i, i < n → (be n v).getD i 0 = BitVec.ofNat 8 (v / 2 ^ (8 * (n - 1 - i))))
    ∧ ∀ bs : List Byte, unBE bs < 2 ^ (8 * bs.length) ∧ be bs.length (unBE bs) = bs

/-- FC_Get shifts and masks out the field of the accessor table (40_frame_control.md R67), for every field, with the
rule's examples. -/
def Obligations.FcGetReadsTheTabledField : Prop :=
  (∀ row ∈ fcTable, ∀ fc : Half, fcGet fc row.1 = ((fc >>> row.2.1) &&& BitVec.ofNat 16 (2 ^ row.2.2.1 - 1)).toNat)
    ∧ (∀ f : FcField, ∃ row ∈ fcTable, row.1 = f)
    ∧ fcGet 0x0240 .subtype = 4 ∧ fcGet 0x0240 .toAP = 1

/-- FC_Set writes the low bits of the value into its field and leaves every other field (40_frame_control.md R68),
with the rule's examples. -/
def Obligations.FcSetWritesOneFieldOnly : Prop :=
  (∀ row ∈ fcTable, ∀ (fc : Half) (v : Nat),
      fcSet fc row.1 v = (fc &&& ~~~row.2.2.2) ||| (BitVec.ofNat 16 (v % 2 ^ row.2.2.1) <<< row.2.1)
      ∧ fcGet (fcSet fc row.1 v) row.1 = v % 2 ^ row.2.2.1
      ∧ ∀ g : FcField, g ≠ row.1 → fcGet (fcSet fc row.1 v) g = fcGet fc g)
    ∧ (∀ f : FcField, ∃ row ∈ fcTable, row.1 = f)
    ∧ fcSet 0 .type 6 = fcSet 0 .type 2 ∧ fcGet (fcSet 0 .type 6) .type = 2 ∧ fcSet 0x0008 .moreFragments 1 = 0x0408

/-- FC_Pack and the FC_Get of every field are inverse (40_frame_control.md R69, which the spec derives from R67
and R68; eleven fields, log 12). -/
def Obligations.FcPackAndFcGetAreInverse : Prop :=
  (∀ fc : Half, fcPack (fcGet fc .protocolVersion) (fcGet fc .type) (fcGet fc .subtype) (fcGet fc .toStation)
      (fcGet fc .toAP) (fcGet fc .moreFragments) (fcGet fc .retry) (fcGet fc .powerManagement) (fcGet fc .moreData)
      (fcGet fc .privacy) (fcGet fc .order) = fc)
    ∧ (∀ pv ty st toSta toAP mf rt pm md pr od : Nat,
        let fc := fcPack pv ty st toSta toAP mf rt pm md pr od
        fcGet fc .protocolVersion = pv % 4 ∧ fcGet fc .type = ty % 4 ∧ fcGet fc .subtype = st % 16
          ∧ fcGet fc .toStation = toSta % 2 ∧ fcGet fc .toAP = toAP % 2 ∧ fcGet fc .moreFragments = mf % 2
          ∧ fcGet fc .retry = rt % 2 ∧ fcGet fc .powerManagement = pm % 2 ∧ fcGet fc .moreData = md % 2
          ∧ fcGet fc .privacy = pr % 2 ∧ fcGet fc .order = od % 2)
    ∧ fcPack 0 2 0 0 1 0 0 0 0 0 0 = 0x0208

/-- FC_Wire puts FC[15:8] first, and FC_Unwire undoes it (40_frame_control.md R70). -/
def Obligations.FcWireFormIsBigEndian : Prop :=
  (∀ fc : Half, fcWire fc = [fc.extractLsb' 8 8, fc.extractLsb' 0 8]
      ∧ fcUnwire (fc.extractLsb' 8 8) (fc.extractLsb' 0 8) = fc)
    ∧ (∀ b0 b1 : Byte, fcUnwire b0 b1 = b0 ++ b1 ∧ fcWire (fcUnwire b0 b1) = [b0, b1])
    ∧ fcWire 0x0208 = [0x02, 0x08]

/-- The sequenceControl subfields: fragment number in bits 3:0, sequence number in bits 15:4
(40_frame_control.md R74), each written without the other. -/
def Obligations.SequenceControlSubfields : Prop :=
  ∀ (seq : Half) (v : Nat),
    fragmentNumber.get seq = seq.toNat % 16 ∧ sequenceNumber.get seq = seq.toNat / 16
    ∧ (fragmentNumber.set seq v).toNat = seq.toNat / 16 * 16 + v % 16
    ∧ (sequenceNumber.set seq v).toNat = v % 4096 * 16 + seq.toNat % 16

/-! ### Reset (70_reset_and_hazards.md) -/

/-- Reset, in any state, a running command's included, gives every register the value of R112, and so does the
state a run starts from; PEND becomes none (R113). -/
def Obligations.ResetGivesTheStatedValues : Prop :=
  (∀ s : State, s.HostNext .reset → ∃ t, step s = .next t ∧ t.ResetValues ∧ t.cfg = s.cfg)
    ∧ State.reset.ResetValues

/-- After a reset the buffers hold free values, fresh at each reset (70_reset_and_hazards.md R112, R113): the
form of the free value is the model's (log 4), and so is what a reset leaves of the host's side (log 17). -/
def Obligations.ResetDrawsFreshBufferContents : Prop :=
  ∀ s : State, s.HostNext .reset → ∃ t, step s = .next t
    ∧ (∀ i, i < s.cfg.maxPayload → t.payByte i = Config.payInit s.draws i)
    ∧ (∀ i, i < s.cfg.maxPayload + 44 → t.envByte i = Config.envInit s.draws i)
    ∧ t.draws = s.draws + 1 ∧ t.script = s.script.tail ∧ t.schedule = s.schedule.tail ∧ t.reads = s.reads

/-! ### Host transactions (20_memory.md, 10_state.md) -/

/-- An idle read returns the word of the register map and changes nothing of the block (20_memory.md R42). -/
def Obligations.IdleReadReturnsTheMappedWord : Prop :=
  ∀ s : State, s.busy = false →
    (∀ row ∈ ([(0x000, 0x46524D31), (0x004, (s.cfg.maxPayload + 44) * 2 ^ 16 + s.cfg.maxPayload),
          (0x008, s.alg.toNat + 2 * s.ie.toNat),
          (0x00C, 2 * s.done.toNat + 4 * s.haz.toNat + 8 * s.integrityOk.toNat + 256 * s.err.toNat), (0x010, 0),
          (0x014, s.startMarker.toNat), (0x018, s.endMarker.toNat), (0x01C, s.envLen.toNat), (0x020, s.fc.toNat),
          (0x024, s.duration.toNat), (0x028, s.seqCtrl.toNat), (0x02C, s.plen.toNat), (0x030, s.fcs.toNat),
          (0x034, s.chkResult.toNat), (0x038, s.skipStart.toNat), (0x03C, s.skipEnd.toNat)]
        ++ [(0x040, unBE [s.dest.id0, s.dest.id1, s.dest.id2, s.dest.id3]),
          (0x044, unBE [s.dest.id4, s.dest.id5, 0, 0]),
          (0x048, unBE [s.src.id0, s.src.id1, s.src.id2, s.src.id3]), (0x04C, unBE [s.src.id4, s.src.id5, 0, 0]),
          (0x050, unBE [s.bssid.id0, s.bssid.id1, s.bssid.id2, s.bssid.id3]),
          (0x054, unBE [s.bssid.id4, s.bssid.id5, 0, 0]),
          (0x058, unBE [s.addr4.id0, s.addr4.id1, s.addr4.id2, s.addr4.id3]),
          (0x05C, unBE [s.addr4.id4, s.addr4.id5, 0, 0])] : List (Nat × Nat)),
      s.HostNext (.read row.1) → step s = .next { s.afterMove with reads := BitVec.ofNat 32 row.2 :: s.reads })
    ∧ (∀ k, k < 1024 → s.HostNext (.read (0x1000 + 4 * k)) → step s = .next { s.afterMove with
        reads := BitVec.ofNat 32 (unBE [s.payByte (4 * k), s.payByte (4 * k + 1), s.payByte (4 * k + 2),
          s.payByte (4 * k + 3)]) :: s.reads })
    ∧ (∀ k, k < 1024 → s.HostNext (.read (0x2000 + 4 * k)) → step s = .next { s.afterMove with
        reads := BitVec.ofNat 32 (unBE [s.envByte (4 * k), s.envByte (4 * k + 1), s.envByte (4 * k + 2),
          s.envByte (4 * k + 3)]) :: s.reads })
    ∧ (∀ off, off % 4 = 0 → (0x060 ≤ off ∧ off ≤ 0x0FFC) ∨ (0x3000 ≤ off ∧ off ≤ 0x3FFC) → s.HostNext (.read off) →
        step s = .next { s.afterMove with reads := 0 :: s.reads })

/-- An idle write stores the implemented bits of its register, the lanes of its buffer word that lie below the
capacity, or nothing (20_memory.md R43, R45), and changes nothing else. -/
def Obligations.IdleWriteStoresTheImplementedBits : Prop :=
  ∀ (s : State) (v : Word), s.busy = false →
    (∀ row ∈ ([(0x000, s.afterMove), (0x004, s.afterMove),
          (0x008, { s.afterMove with alg := v.getLsbD 0, ie := v.getLsbD 1 }),
          (0x00C, { s.afterMove with done := s.done && !v.getLsbD 1, haz := s.haz && !v.getLsbD 2 }),
          (0x010, { s.afterMove with pend := some v, done := false, err := 0 }),
          (0x014, { s.afterMove with startMarker := v }), (0x018, { s.afterMove with endMarker := v }),
          (0x01C, { s.afterMove with envLen := BitVec.ofNat 16 v.toNat }),
          (0x020, { s.afterMove with fc := BitVec.ofNat 16 v.toNat }),
          (0x024, { s.afterMove with duration := BitVec.ofNat 16 v.toNat }),
          (0x028, { s.afterMove with seqCtrl := BitVec.ofNat 16 v.toNat }),
          (0x02C, { s.afterMove with plen := BitVec.ofNat 16 v.toNat }),
          (0x030, { s.afterMove with fcs := v }), (0x034, s.afterMove),
          (0x038, { s.afterMove with skipStart := BitVec.ofNat 16 v.toNat }),
          (0x03C, { s.afterMove with skipEnd := BitVec.ofNat 16 v.toNat })]
        ++ [(0x040, { s.afterMove with dest := ⟨BitVec.ofNat 8 (v.toNat / 2 ^ 24), BitVec.ofNat 8 (v.toNat / 2 ^ 16),
            BitVec.ofNat 8 (v.toNat / 2 ^ 8), BitVec.ofNat 8 v.toNat, s.dest.id4, s.dest.id5⟩ }),
          (0x044, { s.afterMove with dest := ⟨s.dest.id0, s.dest.id1, s.dest.id2, s.dest.id3,
            BitVec.ofNat 8 (v.toNat / 2 ^ 24), BitVec.ofNat 8 (v.toNat / 2 ^ 16)⟩ }),
          (0x048, { s.afterMove with src := ⟨BitVec.ofNat 8 (v.toNat / 2 ^ 24), BitVec.ofNat 8 (v.toNat / 2 ^ 16),
            BitVec.ofNat 8 (v.toNat / 2 ^ 8), BitVec.ofNat 8 v.toNat, s.src.id4, s.src.id5⟩ }),
          (0x04C, { s.afterMove with src := ⟨s.src.id0, s.src.id1, s.src.id2, s.src.id3,
            BitVec.ofNat 8 (v.toNat / 2 ^ 24), BitVec.ofNat 8 (v.toNat / 2 ^ 16)⟩ })]
        ++ [(0x050, { s.afterMove with bssid := ⟨BitVec.ofNat 8 (v.toNat / 2 ^ 24), BitVec.ofNat 8 (v.toNat / 2 ^ 16),
            BitVec.ofNat 8 (v.toNat / 2 ^ 8), BitVec.ofNat 8 v.toNat, s.bssid.id4, s.bssid.id5⟩ }),
          (0x054, { s.afterMove with bssid := ⟨s.bssid.id0, s.bssid.id1, s.bssid.id2, s.bssid.id3,
            BitVec.ofNat 8 (v.toNat / 2 ^ 24), BitVec.ofNat 8 (v.toNat / 2 ^ 16)⟩ }),
          (0x058, { s.afterMove with addr4 := ⟨BitVec.ofNat 8 (v.toNat / 2 ^ 24), BitVec.ofNat 8 (v.toNat / 2 ^ 16),
            BitVec.ofNat 8 (v.toNat / 2 ^ 8), BitVec.ofNat 8 v.toNat, s.addr4.id4, s.addr4.id5⟩ }),
          (0x05C, { s.afterMove with addr4 := ⟨s.addr4.id0, s.addr4.id1, s.addr4.id2, s.addr4.id3,
            BitVec.ofNat 8 (v.toNat / 2 ^ 24), BitVec.ofNat 8 (v.toNat / 2 ^ 16)⟩ })] : List (Nat × State)),
      s.HostNext (.write row.1 v) → step s = .next row.2)
    ∧ (∀ k, k < 1024 → s.HostNext (.write (0x1000 + 4 * k) v) → ∃ m : Memory,
        step s = .next { s.afterMove with pay := m }
        ∧ ∀ a, Memory.read m a = if 4 * k ≤ a ∧ a < 4 * k + 4 ∧ a < s.cfg.maxPayload
            then BitVec.ofNat 8 (v.toNat / 2 ^ (8 * (3 - (a - 4 * k)))) else Memory.read s.pay a)
    ∧ (∀ k, k < 1024 → s.HostNext (.write (0x2000 + 4 * k) v) → ∃ m : Memory,
        step s = .next { s.afterMove with env := m }
        ∧ ∀ a, Memory.read m a = if 4 * k ≤ a ∧ a < 4 * k + 4 ∧ a < s.cfg.maxPayload + 44
            then BitVec.ofNat 8 (v.toNat / 2 ^ (8 * (3 - (a - 4 * k)))) else Memory.read s.env a)
    ∧ (∀ off, off % 4 = 0 → (0x060 ≤ off ∧ off ≤ 0x0FFC) ∨ (0x3000 ≤ off ∧ off ≤ 0x3FFC) →
        s.HostNext (.write off v) → step s = .next s.afterMove)

/-- "RW means the host reads back what it wrote, within the bits the register implements" (10_state.md R16);
the same for every buffer word wholly below its capacity (20_memory.md R45). That the host moves twice where the
schedule is empty is the model's choice (log 1). -/
def Obligations.WriteThenReadGivesTheWordBack : Prop :=
  ∀ (s : State) (v : Word),
    (∀ row ∈ ([(0x008, 0x00000003), (0x014, 0xFFFFFFFF), (0x018, 0xFFFFFFFF), (0x01C, 0x0000FFFF), (0x020, 0x0000FFFF),
          (0x024, 0x0000FFFF), (0x028, 0x0000FFFF), (0x02C, 0x0000FFFF), (0x030, 0xFFFFFFFF), (0x038, 0x0000FFFF),
          (0x03C, 0x0000FFFF), (0x040, 0xFFFFFFFF), (0x044, 0xFFFF0000), (0x048, 0xFFFFFFFF), (0x04C, 0xFFFF0000),
          (0x050, 0xFFFFFFFF), (0x054, 0xFFFF0000), (0x058, 0xFFFFFFFF), (0x05C, 0xFFFF0000)] : List (Nat × Word)),
      ∃ t u, step (s.withScript [.write row.1 v, .read row.1]) = .next t ∧ step t = .next u
        ∧ u.reads = (v &&& row.2) :: s.reads)
    ∧ (∀ k, 4 * k + 4 ≤ s.cfg.maxPayload →
      ∃ t u, step (s.withScript [.write (0x1000 + 4 * k) v, .read (0x1000 + 4 * k)]) = .next t ∧ step t = .next u
        ∧ u.reads = v :: s.reads)
    ∧ (∀ k, 4 * k + 4 ≤ s.cfg.maxPayload + 44 →
      ∃ t u, step (s.withScript [.write (0x2000 + 4 * k) v, .read (0x2000 + 4 * k)]) = .next t ∧ step t = .next u
        ∧ u.reads = v :: s.reads)

/-- Writing a word twice to any offset but CMD leaves the state that writing it once leaves (20_memory.md R49).
That the host moves twice where the schedule is empty is the model's choice (log 1). -/
def Obligations.WritesOtherThanCmdAreIdempotent : Prop :=
  ∀ (s : State) (off : Nat) (v : Word), off % 4 = 0 → off ≤ 0x3FFC → off ≠ 0x010 →
    ∃ t u, step (s.withScript [.write off v, .write off v]) = .next t ∧ step t = .next u
      ∧ u = { t with script := [] }

/-- A write to STATUS acts on its W1C bits alone, whether or not a command runs, and never sets HAZ (10_state.md R20). -/
def Obligations.StatusWriteClearsDoneAndHazOnly : Prop :=
  ∀ (s : State) (v : Word), s.HostNext (.write 0x00C v) →
    step s = .next { s.afterMove with
      done := s.done && !v.getLsbD 1, haz := s.haz && !v.getLsbD 2 }

/-- Issue (10_state.md R36): a write of w to CMD with PEND = none latches w undecoded, sets BUSY and clears
DONE and ERR, in one transition, and changes nothing else. -/
def Obligations.CmdWriteIssuesTheWord : Prop :=
  ∀ (s : State) (w : Word), s.pend = none → s.HostNext (.write 0x010 w) →
    ∃ t, step s = .next t ∧ t = { s.afterMove with pend := some w, done := false, err := 0 } ∧ t.busy = true
      ∧ t.statusWord.getLsbD 0 = true

/-- Writes while busy (70_reset_and_hazards.md R115): any offset but STATUS is refused and sets HAZ, STATUS acts as
always; and HAZ stays 1 until the host clears it or reset. -/
def Obligations.BusyWriteIsRefusedAndSetsHaz : Prop :=
  (∀ (s : State) (off : Nat) (v : Word), s.busy = true → off % 4 = 0 → off ≤ 0x3FFC → s.HostNext (.write off v) →
      step s = .next (if off = 0x00C
        then { s.afterMove with done := s.done && !v.getLsbD 1, haz := s.haz && !v.getLsbD 2 }
        else { s.afterMove with haz := true }))
    ∧ ∀ s t : State, s.haz = true → step s = .next t →
      t.haz = true ∨ (∃ v, s.HostNext (.write 0x00C v) ∧ v.getLsbD 2 = true) ∨ s.HostNext .reset

/-- Reads while busy (70_reset_and_hazards.md R116): ID, PARAM, CONFIG, STATUS, CMD, the markers and reserved
offsets give their value, STATUS with BUSY = 1, DONE = 0, ERR = 0; every other offset gives the next free value,
whatever it is, and the read changes nothing of the block. The form of the free value is the model's (log 5). -/
def Obligations.BusyReadGivesOnlyTheStableOffsets : Prop :=
  ∀ s : State, s.Inv → s.busy = true →
    (∀ row ∈ ([(0x000, 0x46524D31), (0x004, (s.cfg.maxPayload + 44) * 2 ^ 16 + s.cfg.maxPayload),
          (0x008, s.alg.toNat + 2 * s.ie.toNat), (0x00C, 1 + 4 * s.haz.toNat + 8 * s.integrityOk.toNat), (0x010, 0),
          (0x014, s.startMarker.toNat), (0x018, s.endMarker.toNat)] : List (Nat × Nat)),
      s.HostNext (.read row.1) → step s = .next { s.afterMove with reads := BitVec.ofNat 32 row.2 :: s.reads })
    ∧ (∀ off, off % 4 = 0 → (0x060 ≤ off ∧ off ≤ 0x0FFC) ∨ (0x3000 ≤ off ∧ off ≤ 0x3FFC) → s.HostNext (.read off) →
        step s = .next { s.afterMove with reads := 0 :: s.reads })
    ∧ (∀ off, off % 4 = 0 → (0x01C ≤ off ∧ off ≤ 0x05C) ∨ (0x1000 ≤ off ∧ off ≤ 0x2FFC) → s.HostNext (.read off) →
        step s = .next { s.afterMove with reads := Config.busyRead s.draws :: s.reads, draws := s.draws + 1 })

/-- A misaligned or out-of-window access is no transaction: the step is refused (20_memory.md R41), and no
other step of the machine is refused. -/
def Obligations.OnlyNonTransactionsAreRefused : Prop :=
  (∀ (s : State) (off : Nat) (v : Word), off % 4 ≠ 0 ∨ 0x3FFC < off → s.HostNext (.read off) ∨ s.HostNext (.write off v) →
      step s = .refused (.notATransaction off))
    ∧ ∀ (s : State) (r : Refusal), step s = .refused r → ∃ off, r = .notATransaction off
      ∧ (off % 4 ≠ 0 ∨ 0x3FFC < off) ∧ (s.HostNext (.read off) ∨ ∃ v, s.HostNext (.write off v))

/-- WAIT (00_scope.md R12) reads STATUS and stays the host's next move until BUSY = 0. That it is one repeating
move is the model's form (log 9). -/
def Obligations.WaitPollsStatusUntilIdle : Prop :=
  ∀ s : State, s.HostNext .wait → step s = .next { s with
    schedule := s.schedule.tail, reads := s.statusWord :: s.reads
    script := if s.busy then s.script else s.script.tail }

/-- The interrupt output (60_exceptions.md R103): IE and DONE together, raised by completion alone, cleared by a
write of 1 to DONE and by issue, masked by IE = 0, not driven by HAZ, 0 after reset. -/
def Obligations.InterruptIsEnableAndDone : Prop :=
  ∀ s : State,
    s.irq = (s.ie && s.done)
    ∧ (∀ b : Bool, { s with haz := b }.irq = s.irq)
    ∧ (∀ i t, exec i s = .next t → t.irq = s.ie)
    ∧ (∀ v, v.getLsbD 1 = true → s.HostNext (.write 0x00C v) → ∃ t, step s = .next t ∧ t.irq = false)
    ∧ (∀ w, s.busy = false → s.HostNext (.write 0x010 w) → ∃ t, step s = .next t ∧ t.irq = false)
    ∧ (∀ v, s.busy = false → v.getLsbD 1 = false → s.HostNext (.write 0x008 v) →
        ∃ t, step s = .next t ∧ t.irq = false ∧ t.done = s.done)
    ∧ (s.HostNext .reset → ∃ t, step s = .next t ∧ t.irq = false)
    ∧ (∀ t, step s = .next t → s.done = false → t.done = true → s.busy = true ∧ s.turn = .engine)
    ∧ State.reset.irq = false

/-! ### The whole machine -/

/-- Every step keeps the invariant: DONE and ERR are 0 while a command is pending, ERR is no reserved code, and
both buffers stay in canonical form and within their capacity. -/
def Obligations.EveryStepKeepsTheInvariant : Prop :=
  ∀ s t : State, s.Inv → step s = .next t → t.Inv

/-- The invariant holds right after reset. -/
def Obligations.ResetSatisfiesTheInvariant : Prop := State.reset.Inv

/-- No host transaction reaches a running command (10_state.md R37, 70_reset_and_hazards.md R115): whatever the host
reads, writes or polls while the command waits for the engine, for however many turns, the engine's turn gives
the results the command would have had at once, and it completes; only HAZ and the host's own view differ. The
schedule, and a host's turn that finds its script empty, are the model's form (logs 1 and 16). -/
def Obligations.HostCannotDisturbARunningCommand : Prop :=
  ∀ (s : State) (w : Word) (k : Nat) (rest : List Agent), s.pend = some w →
    (∀ m ∈ s.script, m.transaction = true) → s.schedule = List.replicate k .host ++ .engine :: rest →
    ∃ t u v, Steps k s t
      ∧ t = { s with
          done := t.done, haz := t.haz, script := t.script, schedule := .engine :: rest
          reads := t.reads, draws := t.draws }
      ∧ exec (decodeWord w) s = .next u ∧ step t = .next v
      ∧ v = { u with haz := t.haz, script := t.script, schedule := rest, reads := t.reads, draws := t.draws }
      ∧ v.busy = false ∧ v.done = true

/-- Only the engine's turn completes a pending command, and only reset abandons it (60_exceptions.md R107). -/
def Obligations.OnlyTheEngineOrResetEndsACommand : Prop :=
  ∀ (s t : State) (w : Word), s.pend = some w → step s = .next t →
    (s.turn = .engine ∧ t.pend = none ∧ t.done = true) ∨ (s.HostNext .reset ∧ t.pend = none ∧ t.done = false)
      ∨ t.pend = some w

/-- The writers of each STATUS flag (10_state.md R39); reset beside them is 70_reset_and_hazards.md R112. -/
def Obligations.StatusFlagsHaveOnlyTheirWriters : Prop :=
  ∀ s t : State, step s = .next t → ¬s.HostNext .reset →
    (t.busy ≠ s.busy ∨ t.err ≠ s.err →
      (s.busy = false ∧ ∃ w, s.HostNext (.write 0x010 w)) ∨ (s.busy = true ∧ s.turn = .engine))
    ∧ (t.done ≠ s.done → (s.busy = false ∧ ∃ w, s.HostNext (.write 0x010 w)) ∨ (s.busy = true ∧ s.turn = .engine)
        ∨ ∃ v, s.HostNext (.write 0x00C v) ∧ v.getLsbD 1 = true)
    ∧ (t.haz ≠ s.haz → (s.busy = true ∧ ∃ off v, off ≠ 0x00C ∧ s.HostNext (.write off v))
        ∨ ∃ v, s.HostNext (.write 0x00C v) ∧ v.getLsbD 2 = true)
    ∧ (t.integrityOk ≠ s.integrityOk → s.turn = .engine ∧ ∃ w, s.pend = some w
        ∧ decodeWord w ∈ [Instr.encode, Instr.encodeKeep, Instr.decode, Instr.verify, Instr.clear])

/-- CONFIG and the markers are written only by host transactions and by reset, never by a command
(43_control.md R97), and the configuration never changes (10_state.md R13; that it stands in the state is the
model's form, log 2). -/
def Obligations.OnlyTheHostWritesConfigAndMarkers : Prop :=
  ∀ s t : State, step s = .next t →
    t.cfg = s.cfg
    ∧ (¬s.HostNext .reset →
      ((t.alg ≠ s.alg ∨ t.ie ≠ s.ie) → s.busy = false ∧ ∃ v, s.HostNext (.write 0x008 v))
      ∧ (t.startMarker ≠ s.startMarker → s.busy = false ∧ ∃ v, s.HostNext (.write 0x014 v))
      ∧ (t.endMarker ≠ s.endMarker → s.busy = false ∧ ∃ v, s.HostNext (.write 0x018 v)))

/-- Both orders of a host write and the engine's step are behaviours of the machine, for every command word and
every word written to every offset but STATUS (93_implementation_defined.md U7, 95_test_vectors.md HZ-1 and HZ-2).
With the engine's turn first, the write acts on the state the command leaves; with the write first, it is refused
and the command gives the results it would have given at once. The schedule is the model's form (log 1). -/
def Obligations.WriteAndEngineStepMayComeInEitherOrder : Prop :=
  ∀ (s : State) (w x : Word) (off : Nat), s.pend = none → off % 4 = 0 → off ≤ 0x3FFC → off ≠ 0x00C →
    ∃ u t, exec (decodeWord w) { s with pend := some w, done := false, err := 0, script := [], schedule := [] } = .next u
      ∧ u.done = true ∧ u.haz = s.haz
      ∧ Steps 3 (s.withTurns [.write 0x010 w, .write off x] [.host, .engine, .host]) t
      ∧ step { u with script := [.write off x], schedule := [.host] } = .next t ∧ t.haz = s.haz
      ∧ (off = 0x020 → t = { u with fc := BitVec.ofNat 16 x.toNat })
      ∧ (off = 0x010 → t = { u with pend := some x, done := false, err := 0 })
      ∧ Steps 3 (s.withTurns [.write 0x010 w, .write off x] [.host, .host, .engine]) { u with haz := true }
      ∧ (w = 0x00000001 → s.plen.toNat ≤ s.cfg.maxPayload → u.fc = s.fc ∧ u.fcs = s.ck s.body ∧ u.err = 0)

/-- A host that keeps duty (a) of 70_reset_and_hazards.md R117 while BUSY = 1 never sets HAZ and never draws an
unspecified word. -/
def Obligations.DutifulHostNeverSetsHaz : Prop :=
  ∀ (s : State) (m : HostMove), s.busy = true → s.HostNext m → m.dutiful = true →
    ∃ t, step s = .next t ∧ (t.haz = true → s.haz = true) ∧ (m ≠ .reset → t.draws = s.draws)
end

