-- ==== Sys2Proof/Laws/State.lean ====
section
/-! SUPPORT. What each state update of the machine does to each field: one lemma a field, true by rfl. -/

namespace Sys2Proof.Machine

variable (s : State)

/-! `State.complete` writes the Complete fields of 10_state.md R38 and nothing else. -/

@[simp] theorem State.complete_alg (e : ErrorCode) : (s.complete e).alg = s.alg := rfl
@[simp] theorem State.complete_ie (e : ErrorCode) : (s.complete e).ie = s.ie := rfl
@[simp] theorem State.complete_done (e : ErrorCode) : (s.complete e).done = true := rfl
@[simp] theorem State.complete_haz (e : ErrorCode) : (s.complete e).haz = s.haz := rfl
@[simp] theorem State.complete_integrityOk (e : ErrorCode) : (s.complete e).integrityOk = s.integrityOk := rfl
@[simp] theorem State.complete_err (e : ErrorCode) : (s.complete e).err = e.code := rfl
@[simp] theorem State.complete_pend (e : ErrorCode) : (s.complete e).pend = none := rfl
@[simp] theorem State.complete_startMarker (e : ErrorCode) : (s.complete e).startMarker = s.startMarker := rfl
@[simp] theorem State.complete_endMarker (e : ErrorCode) : (s.complete e).endMarker = s.endMarker := rfl
@[simp] theorem State.complete_envLen (e : ErrorCode) : (s.complete e).envLen = s.envLen := rfl
@[simp] theorem State.complete_fc (e : ErrorCode) : (s.complete e).fc = s.fc := rfl
@[simp] theorem State.complete_duration (e : ErrorCode) : (s.complete e).duration = s.duration := rfl
@[simp] theorem State.complete_seqCtrl (e : ErrorCode) : (s.complete e).seqCtrl = s.seqCtrl := rfl
@[simp] theorem State.complete_plen (e : ErrorCode) : (s.complete e).plen = s.plen := rfl
@[simp] theorem State.complete_fcs (e : ErrorCode) : (s.complete e).fcs = s.fcs := rfl
@[simp] theorem State.complete_chkResult (e : ErrorCode) : (s.complete e).chkResult = s.chkResult := rfl
@[simp] theorem State.complete_skipStart (e : ErrorCode) : (s.complete e).skipStart = s.skipStart := rfl
@[simp] theorem State.complete_skipEnd (e : ErrorCode) : (s.complete e).skipEnd = s.skipEnd := rfl
@[simp] theorem State.complete_dest (e : ErrorCode) : (s.complete e).dest = s.dest := rfl
@[simp] theorem State.complete_src (e : ErrorCode) : (s.complete e).src = s.src := rfl
@[simp] theorem State.complete_bssid (e : ErrorCode) : (s.complete e).bssid = s.bssid := rfl
@[simp] theorem State.complete_addr4 (e : ErrorCode) : (s.complete e).addr4 = s.addr4 := rfl
@[simp] theorem State.complete_pay (e : ErrorCode) : (s.complete e).pay = s.pay := rfl
@[simp] theorem State.complete_env (e : ErrorCode) : (s.complete e).env = s.env := rfl
@[simp] theorem State.complete_cfg (e : ErrorCode) : (s.complete e).cfg = s.cfg := rfl
@[simp] theorem State.complete_script (e : ErrorCode) : (s.complete e).script = s.script := rfl
@[simp] theorem State.complete_schedule (e : ErrorCode) : (s.complete e).schedule = s.schedule := rfl
@[simp] theorem State.complete_reads (e : ErrorCode) : (s.complete e).reads = s.reads := rfl
@[simp] theorem State.complete_draws (e : ErrorCode) : (s.complete e).draws = s.draws := rfl

/-! `State.failWith` clears INTEGRITY_OK beside the Complete fields. -/

@[simp] theorem State.failWith_alg (e : ErrorCode) : (s.failWith e).alg = s.alg := rfl
@[simp] theorem State.failWith_ie (e : ErrorCode) : (s.failWith e).ie = s.ie := rfl
@[simp] theorem State.failWith_done (e : ErrorCode) : (s.failWith e).done = true := rfl
@[simp] theorem State.failWith_haz (e : ErrorCode) : (s.failWith e).haz = s.haz := rfl
@[simp] theorem State.failWith_integrityOk (e : ErrorCode) : (s.failWith e).integrityOk = false := rfl
@[simp] theorem State.failWith_err (e : ErrorCode) : (s.failWith e).err = e.code := rfl
@[simp] theorem State.failWith_pend (e : ErrorCode) : (s.failWith e).pend = none := rfl
@[simp] theorem State.failWith_startMarker (e : ErrorCode) : (s.failWith e).startMarker = s.startMarker := rfl
@[simp] theorem State.failWith_endMarker (e : ErrorCode) : (s.failWith e).endMarker = s.endMarker := rfl
@[simp] theorem State.failWith_envLen (e : ErrorCode) : (s.failWith e).envLen = s.envLen := rfl
@[simp] theorem State.failWith_fc (e : ErrorCode) : (s.failWith e).fc = s.fc := rfl
@[simp] theorem State.failWith_duration (e : ErrorCode) : (s.failWith e).duration = s.duration := rfl
@[simp] theorem State.failWith_seqCtrl (e : ErrorCode) : (s.failWith e).seqCtrl = s.seqCtrl := rfl
@[simp] theorem State.failWith_plen (e : ErrorCode) : (s.failWith e).plen = s.plen := rfl
@[simp] theorem State.failWith_fcs (e : ErrorCode) : (s.failWith e).fcs = s.fcs := rfl
@[simp] theorem State.failWith_chkResult (e : ErrorCode) : (s.failWith e).chkResult = s.chkResult := rfl
@[simp] theorem State.failWith_skipStart (e : ErrorCode) : (s.failWith e).skipStart = s.skipStart := rfl
@[simp] theorem State.failWith_skipEnd (e : ErrorCode) : (s.failWith e).skipEnd = s.skipEnd := rfl
@[simp] theorem State.failWith_dest (e : ErrorCode) : (s.failWith e).dest = s.dest := rfl
@[simp] theorem State.failWith_src (e : ErrorCode) : (s.failWith e).src = s.src := rfl
@[simp] theorem State.failWith_bssid (e : ErrorCode) : (s.failWith e).bssid = s.bssid := rfl
@[simp] theorem State.failWith_addr4 (e : ErrorCode) : (s.failWith e).addr4 = s.addr4 := rfl
@[simp] theorem State.failWith_pay (e : ErrorCode) : (s.failWith e).pay = s.pay := rfl
@[simp] theorem State.failWith_env (e : ErrorCode) : (s.failWith e).env = s.env := rfl
@[simp] theorem State.failWith_cfg (e : ErrorCode) : (s.failWith e).cfg = s.cfg := rfl
@[simp] theorem State.failWith_script (e : ErrorCode) : (s.failWith e).script = s.script := rfl
@[simp] theorem State.failWith_schedule (e : ErrorCode) : (s.failWith e).schedule = s.schedule := rfl
@[simp] theorem State.failWith_reads (e : ErrorCode) : (s.failWith e).reads = s.reads := rfl
@[simp] theorem State.failWith_draws (e : ErrorCode) : (s.failWith e).draws = s.draws := rfl

/-! `State.issue` writes the fields of 10_state.md R36 and nothing else. -/

@[simp] theorem State.issue_alg (w : Word) : (s.issue w).alg = s.alg := rfl
@[simp] theorem State.issue_ie (w : Word) : (s.issue w).ie = s.ie := rfl
@[simp] theorem State.issue_done (w : Word) : (s.issue w).done = false := rfl
@[simp] theorem State.issue_haz (w : Word) : (s.issue w).haz = s.haz := rfl
@[simp] theorem State.issue_integrityOk (w : Word) : (s.issue w).integrityOk = s.integrityOk := rfl
@[simp] theorem State.issue_err (w : Word) : (s.issue w).err = 0 := rfl
@[simp] theorem State.issue_pend (w : Word) : (s.issue w).pend = some w := rfl
@[simp] theorem State.issue_startMarker (w : Word) : (s.issue w).startMarker = s.startMarker := rfl
@[simp] theorem State.issue_endMarker (w : Word) : (s.issue w).endMarker = s.endMarker := rfl
@[simp] theorem State.issue_envLen (w : Word) : (s.issue w).envLen = s.envLen := rfl
@[simp] theorem State.issue_fc (w : Word) : (s.issue w).fc = s.fc := rfl
@[simp] theorem State.issue_duration (w : Word) : (s.issue w).duration = s.duration := rfl
@[simp] theorem State.issue_seqCtrl (w : Word) : (s.issue w).seqCtrl = s.seqCtrl := rfl
@[simp] theorem State.issue_plen (w : Word) : (s.issue w).plen = s.plen := rfl
@[simp] theorem State.issue_fcs (w : Word) : (s.issue w).fcs = s.fcs := rfl
@[simp] theorem State.issue_chkResult (w : Word) : (s.issue w).chkResult = s.chkResult := rfl
@[simp] theorem State.issue_skipStart (w : Word) : (s.issue w).skipStart = s.skipStart := rfl
@[simp] theorem State.issue_skipEnd (w : Word) : (s.issue w).skipEnd = s.skipEnd := rfl
@[simp] theorem State.issue_dest (w : Word) : (s.issue w).dest = s.dest := rfl
@[simp] theorem State.issue_src (w : Word) : (s.issue w).src = s.src := rfl
@[simp] theorem State.issue_bssid (w : Word) : (s.issue w).bssid = s.bssid := rfl
@[simp] theorem State.issue_addr4 (w : Word) : (s.issue w).addr4 = s.addr4 := rfl
@[simp] theorem State.issue_pay (w : Word) : (s.issue w).pay = s.pay := rfl
@[simp] theorem State.issue_env (w : Word) : (s.issue w).env = s.env := rfl
@[simp] theorem State.issue_cfg (w : Word) : (s.issue w).cfg = s.cfg := rfl
@[simp] theorem State.issue_script (w : Word) : (s.issue w).script = s.script := rfl
@[simp] theorem State.issue_schedule (w : Word) : (s.issue w).schedule = s.schedule := rfl
@[simp] theorem State.issue_reads (w : Word) : (s.issue w).reads = s.reads := rfl
@[simp] theorem State.issue_draws (w : Word) : (s.issue w).draws = s.draws := rfl

/-! `State.payWrite` writes PAYLOAD_BUF alone. -/

@[simp] theorem State.payWrite_alg (i : Nat) (bs : List Byte) : (s.payWrite i bs).alg = s.alg := rfl
@[simp] theorem State.payWrite_ie (i : Nat) (bs : List Byte) : (s.payWrite i bs).ie = s.ie := rfl
@[simp] theorem State.payWrite_done (i : Nat) (bs : List Byte) : (s.payWrite i bs).done = s.done := rfl
@[simp] theorem State.payWrite_haz (i : Nat) (bs : List Byte) : (s.payWrite i bs).haz = s.haz := rfl
@[simp] theorem State.payWrite_integrityOk (i : Nat) (bs : List Byte) : (s.payWrite i bs).integrityOk = s.integrityOk := rfl
@[simp] theorem State.payWrite_err (i : Nat) (bs : List Byte) : (s.payWrite i bs).err = s.err := rfl
@[simp] theorem State.payWrite_pend (i : Nat) (bs : List Byte) : (s.payWrite i bs).pend = s.pend := rfl
@[simp] theorem State.payWrite_startMarker (i : Nat) (bs : List Byte) : (s.payWrite i bs).startMarker = s.startMarker := rfl
@[simp] theorem State.payWrite_endMarker (i : Nat) (bs : List Byte) : (s.payWrite i bs).endMarker = s.endMarker := rfl
@[simp] theorem State.payWrite_envLen (i : Nat) (bs : List Byte) : (s.payWrite i bs).envLen = s.envLen := rfl
@[simp] theorem State.payWrite_fc (i : Nat) (bs : List Byte) : (s.payWrite i bs).fc = s.fc := rfl
@[simp] theorem State.payWrite_duration (i : Nat) (bs : List Byte) : (s.payWrite i bs).duration = s.duration := rfl
@[simp] theorem State.payWrite_seqCtrl (i : Nat) (bs : List Byte) : (s.payWrite i bs).seqCtrl = s.seqCtrl := rfl
@[simp] theorem State.payWrite_plen (i : Nat) (bs : List Byte) : (s.payWrite i bs).plen = s.plen := rfl
@[simp] theorem State.payWrite_fcs (i : Nat) (bs : List Byte) : (s.payWrite i bs).fcs = s.fcs := rfl
@[simp] theorem State.payWrite_chkResult (i : Nat) (bs : List Byte) : (s.payWrite i bs).chkResult = s.chkResult := rfl
@[simp] theorem State.payWrite_skipStart (i : Nat) (bs : List Byte) : (s.payWrite i bs).skipStart = s.skipStart := rfl
@[simp] theorem State.payWrite_skipEnd (i : Nat) (bs : List Byte) : (s.payWrite i bs).skipEnd = s.skipEnd := rfl
@[simp] theorem State.payWrite_dest (i : Nat) (bs : List Byte) : (s.payWrite i bs).dest = s.dest := rfl
@[simp] theorem State.payWrite_src (i : Nat) (bs : List Byte) : (s.payWrite i bs).src = s.src := rfl
@[simp] theorem State.payWrite_bssid (i : Nat) (bs : List Byte) : (s.payWrite i bs).bssid = s.bssid := rfl
@[simp] theorem State.payWrite_addr4 (i : Nat) (bs : List Byte) : (s.payWrite i bs).addr4 = s.addr4 := rfl
@[simp] theorem State.payWrite_pay (i : Nat) (bs : List Byte) : (s.payWrite i bs).pay = Memory.store s.cfg.maxPayload s.pay i bs := rfl
@[simp] theorem State.payWrite_env (i : Nat) (bs : List Byte) : (s.payWrite i bs).env = s.env := rfl
@[simp] theorem State.payWrite_cfg (i : Nat) (bs : List Byte) : (s.payWrite i bs).cfg = s.cfg := rfl
@[simp] theorem State.payWrite_script (i : Nat) (bs : List Byte) : (s.payWrite i bs).script = s.script := rfl
@[simp] theorem State.payWrite_schedule (i : Nat) (bs : List Byte) : (s.payWrite i bs).schedule = s.schedule := rfl
@[simp] theorem State.payWrite_reads (i : Nat) (bs : List Byte) : (s.payWrite i bs).reads = s.reads := rfl
@[simp] theorem State.payWrite_draws (i : Nat) (bs : List Byte) : (s.payWrite i bs).draws = s.draws := rfl

/-! `State.envWrite` writes ENV_BUF alone. -/

@[simp] theorem State.envWrite_alg (a : Nat) (bs : List Byte) : (s.envWrite a bs).alg = s.alg := rfl
@[simp] theorem State.envWrite_ie (a : Nat) (bs : List Byte) : (s.envWrite a bs).ie = s.ie := rfl
@[simp] theorem State.envWrite_done (a : Nat) (bs : List Byte) : (s.envWrite a bs).done = s.done := rfl
@[simp] theorem State.envWrite_haz (a : Nat) (bs : List Byte) : (s.envWrite a bs).haz = s.haz := rfl
@[simp] theorem State.envWrite_integrityOk (a : Nat) (bs : List Byte) : (s.envWrite a bs).integrityOk = s.integrityOk := rfl
@[simp] theorem State.envWrite_err (a : Nat) (bs : List Byte) : (s.envWrite a bs).err = s.err := rfl
@[simp] theorem State.envWrite_pend (a : Nat) (bs : List Byte) : (s.envWrite a bs).pend = s.pend := rfl
@[simp] theorem State.envWrite_startMarker (a : Nat) (bs : List Byte) : (s.envWrite a bs).startMarker = s.startMarker := rfl
@[simp] theorem State.envWrite_endMarker (a : Nat) (bs : List Byte) : (s.envWrite a bs).endMarker = s.endMarker := rfl
@[simp] theorem State.envWrite_envLen (a : Nat) (bs : List Byte) : (s.envWrite a bs).envLen = s.envLen := rfl
@[simp] theorem State.envWrite_fc (a : Nat) (bs : List Byte) : (s.envWrite a bs).fc = s.fc := rfl
@[simp] theorem State.envWrite_duration (a : Nat) (bs : List Byte) : (s.envWrite a bs).duration = s.duration := rfl
@[simp] theorem State.envWrite_seqCtrl (a : Nat) (bs : List Byte) : (s.envWrite a bs).seqCtrl = s.seqCtrl := rfl
@[simp] theorem State.envWrite_plen (a : Nat) (bs : List Byte) : (s.envWrite a bs).plen = s.plen := rfl
@[simp] theorem State.envWrite_fcs (a : Nat) (bs : List Byte) : (s.envWrite a bs).fcs = s.fcs := rfl
@[simp] theorem State.envWrite_chkResult (a : Nat) (bs : List Byte) : (s.envWrite a bs).chkResult = s.chkResult := rfl
@[simp] theorem State.envWrite_skipStart (a : Nat) (bs : List Byte) : (s.envWrite a bs).skipStart = s.skipStart := rfl
@[simp] theorem State.envWrite_skipEnd (a : Nat) (bs : List Byte) : (s.envWrite a bs).skipEnd = s.skipEnd := rfl
@[simp] theorem State.envWrite_dest (a : Nat) (bs : List Byte) : (s.envWrite a bs).dest = s.dest := rfl
@[simp] theorem State.envWrite_src (a : Nat) (bs : List Byte) : (s.envWrite a bs).src = s.src := rfl
@[simp] theorem State.envWrite_bssid (a : Nat) (bs : List Byte) : (s.envWrite a bs).bssid = s.bssid := rfl
@[simp] theorem State.envWrite_addr4 (a : Nat) (bs : List Byte) : (s.envWrite a bs).addr4 = s.addr4 := rfl
@[simp] theorem State.envWrite_pay (a : Nat) (bs : List Byte) : (s.envWrite a bs).pay = s.pay := rfl
@[simp] theorem State.envWrite_env (a : Nat) (bs : List Byte) : (s.envWrite a bs).env = Memory.store s.cfg.maxEnvelope s.env a bs := rfl
@[simp] theorem State.envWrite_cfg (a : Nat) (bs : List Byte) : (s.envWrite a bs).cfg = s.cfg := rfl
@[simp] theorem State.envWrite_script (a : Nat) (bs : List Byte) : (s.envWrite a bs).script = s.script := rfl
@[simp] theorem State.envWrite_schedule (a : Nat) (bs : List Byte) : (s.envWrite a bs).schedule = s.schedule := rfl
@[simp] theorem State.envWrite_reads (a : Nat) (bs : List Byte) : (s.envWrite a bs).reads = s.reads := rfl
@[simp] theorem State.envWrite_draws (a : Nat) (bs : List Byte) : (s.envWrite a bs).draws = s.draws := rfl

/-! `State.emit` writes ENV_BUF and ENV_LEN alone. -/

@[simp] theorem State.emit_alg (t : Word) : (s.emit t).alg = s.alg := rfl
@[simp] theorem State.emit_ie (t : Word) : (s.emit t).ie = s.ie := rfl
@[simp] theorem State.emit_done (t : Word) : (s.emit t).done = s.done := rfl
@[simp] theorem State.emit_haz (t : Word) : (s.emit t).haz = s.haz := rfl
@[simp] theorem State.emit_integrityOk (t : Word) : (s.emit t).integrityOk = s.integrityOk := rfl
@[simp] theorem State.emit_err (t : Word) : (s.emit t).err = s.err := rfl
@[simp] theorem State.emit_pend (t : Word) : (s.emit t).pend = s.pend := rfl
@[simp] theorem State.emit_startMarker (t : Word) : (s.emit t).startMarker = s.startMarker := rfl
@[simp] theorem State.emit_endMarker (t : Word) : (s.emit t).endMarker = s.endMarker := rfl
@[simp] theorem State.emit_envLen (t : Word) : (s.emit t).envLen = BitVec.ofNat 16 (Config.envOverhead + s.plen.toNat) := rfl
@[simp] theorem State.emit_fc (t : Word) : (s.emit t).fc = s.fc := rfl
@[simp] theorem State.emit_duration (t : Word) : (s.emit t).duration = s.duration := rfl
@[simp] theorem State.emit_seqCtrl (t : Word) : (s.emit t).seqCtrl = s.seqCtrl := rfl
@[simp] theorem State.emit_plen (t : Word) : (s.emit t).plen = s.plen := rfl
@[simp] theorem State.emit_fcs (t : Word) : (s.emit t).fcs = s.fcs := rfl
@[simp] theorem State.emit_chkResult (t : Word) : (s.emit t).chkResult = s.chkResult := rfl
@[simp] theorem State.emit_skipStart (t : Word) : (s.emit t).skipStart = s.skipStart := rfl
@[simp] theorem State.emit_skipEnd (t : Word) : (s.emit t).skipEnd = s.skipEnd := rfl
@[simp] theorem State.emit_dest (t : Word) : (s.emit t).dest = s.dest := rfl
@[simp] theorem State.emit_src (t : Word) : (s.emit t).src = s.src := rfl
@[simp] theorem State.emit_bssid (t : Word) : (s.emit t).bssid = s.bssid := rfl
@[simp] theorem State.emit_addr4 (t : Word) : (s.emit t).addr4 = s.addr4 := rfl
@[simp] theorem State.emit_pay (t : Word) : (s.emit t).pay = s.pay := rfl
@[simp] theorem State.emit_env (t : Word) : (s.emit t).env = Memory.store s.cfg.maxEnvelope s.env 0 (s.envelope t) := rfl
@[simp] theorem State.emit_cfg (t : Word) : (s.emit t).cfg = s.cfg := rfl
@[simp] theorem State.emit_script (t : Word) : (s.emit t).script = s.script := rfl
@[simp] theorem State.emit_schedule (t : Word) : (s.emit t).schedule = s.schedule := rfl
@[simp] theorem State.emit_reads (t : Word) : (s.emit t).reads = s.reads := rfl
@[simp] theorem State.emit_draws (t : Word) : (s.emit t).draws = s.draws := rfl

/-! `State.loadFrame` writes the frame registers and PAYLOAD_BUF alone. -/

@[simp] theorem State.loadFrame_alg (l : Nat) : (s.loadFrame l).alg = s.alg := rfl
@[simp] theorem State.loadFrame_ie (l : Nat) : (s.loadFrame l).ie = s.ie := rfl
@[simp] theorem State.loadFrame_done (l : Nat) : (s.loadFrame l).done = s.done := rfl
@[simp] theorem State.loadFrame_haz (l : Nat) : (s.loadFrame l).haz = s.haz := rfl
@[simp] theorem State.loadFrame_integrityOk (l : Nat) : (s.loadFrame l).integrityOk = s.integrityOk := rfl
@[simp] theorem State.loadFrame_err (l : Nat) : (s.loadFrame l).err = s.err := rfl
@[simp] theorem State.loadFrame_pend (l : Nat) : (s.loadFrame l).pend = s.pend := rfl
@[simp] theorem State.loadFrame_startMarker (l : Nat) : (s.loadFrame l).startMarker = s.startMarker := rfl
@[simp] theorem State.loadFrame_endMarker (l : Nat) : (s.loadFrame l).endMarker = s.endMarker := rfl
@[simp] theorem State.loadFrame_envLen (l : Nat) : (s.loadFrame l).envLen = s.envLen := rfl
@[simp] theorem State.loadFrame_fc (l : Nat) : (s.loadFrame l).fc = fcUnwire (s.envByte 4) (s.envByte 5) := rfl
@[simp] theorem State.loadFrame_duration (l : Nat) : (s.loadFrame l).duration = BitVec.ofNat 16 (s.memRead 6 2) := rfl
@[simp] theorem State.loadFrame_seqCtrl (l : Nat) : (s.loadFrame l).seqCtrl = BitVec.ofNat 16 (s.memRead 26 2) := rfl
@[simp] theorem State.loadFrame_plen (l : Nat) : (s.loadFrame l).plen = BitVec.ofNat 16 l := rfl
@[simp] theorem State.loadFrame_fcs (l : Nat) : (s.loadFrame l).fcs = s.fcs := rfl
@[simp] theorem State.loadFrame_chkResult (l : Nat) : (s.loadFrame l).chkResult = s.chkResult := rfl
@[simp] theorem State.loadFrame_skipStart (l : Nat) : (s.loadFrame l).skipStart = s.skipStart := rfl
@[simp] theorem State.loadFrame_skipEnd (l : Nat) : (s.loadFrame l).skipEnd = s.skipEnd := rfl
@[simp] theorem State.loadFrame_dest (l : Nat) : (s.loadFrame l).dest = s.envId 8 := rfl
@[simp] theorem State.loadFrame_src (l : Nat) : (s.loadFrame l).src = s.envId 14 := rfl
@[simp] theorem State.loadFrame_bssid (l : Nat) : (s.loadFrame l).bssid = s.envId 20 := rfl
@[simp] theorem State.loadFrame_addr4 (l : Nat) : (s.loadFrame l).addr4 = s.envId 28 := rfl
@[simp] theorem State.loadFrame_pay (l : Nat) : (s.loadFrame l).pay = Memory.store s.cfg.maxPayload s.pay 0 (s.envRead 36 l) := rfl
@[simp] theorem State.loadFrame_env (l : Nat) : (s.loadFrame l).env = s.env := rfl
@[simp] theorem State.loadFrame_cfg (l : Nat) : (s.loadFrame l).cfg = s.cfg := rfl
@[simp] theorem State.loadFrame_script (l : Nat) : (s.loadFrame l).script = s.script := rfl
@[simp] theorem State.loadFrame_schedule (l : Nat) : (s.loadFrame l).schedule = s.schedule := rfl
@[simp] theorem State.loadFrame_reads (l : Nat) : (s.loadFrame l).reads = s.reads := rfl
@[simp] theorem State.loadFrame_draws (l : Nat) : (s.loadFrame l).draws = s.draws := rfl

/-! `State.writeStatus` clears DONE and HAZ by their W1C bits and writes nothing else (10_state.md R20). -/

@[simp] theorem State.writeStatus_alg (v : Word) : (s.writeStatus v).alg = s.alg := rfl
@[simp] theorem State.writeStatus_ie (v : Word) : (s.writeStatus v).ie = s.ie := rfl
@[simp] theorem State.writeStatus_done (v : Word) : (s.writeStatus v).done = (s.done && !v.getLsbD 1) := rfl
@[simp] theorem State.writeStatus_haz (v : Word) : (s.writeStatus v).haz = (s.haz && !v.getLsbD 2) := rfl
@[simp] theorem State.writeStatus_integrityOk (v : Word) : (s.writeStatus v).integrityOk = s.integrityOk := rfl
@[simp] theorem State.writeStatus_err (v : Word) : (s.writeStatus v).err = s.err := rfl
@[simp] theorem State.writeStatus_pend (v : Word) : (s.writeStatus v).pend = s.pend := rfl
@[simp] theorem State.writeStatus_startMarker (v : Word) : (s.writeStatus v).startMarker = s.startMarker := rfl
@[simp] theorem State.writeStatus_endMarker (v : Word) : (s.writeStatus v).endMarker = s.endMarker := rfl
@[simp] theorem State.writeStatus_envLen (v : Word) : (s.writeStatus v).envLen = s.envLen := rfl
@[simp] theorem State.writeStatus_fc (v : Word) : (s.writeStatus v).fc = s.fc := rfl
@[simp] theorem State.writeStatus_duration (v : Word) : (s.writeStatus v).duration = s.duration := rfl
@[simp] theorem State.writeStatus_seqCtrl (v : Word) : (s.writeStatus v).seqCtrl = s.seqCtrl := rfl
@[simp] theorem State.writeStatus_plen (v : Word) : (s.writeStatus v).plen = s.plen := rfl
@[simp] theorem State.writeStatus_fcs (v : Word) : (s.writeStatus v).fcs = s.fcs := rfl
@[simp] theorem State.writeStatus_chkResult (v : Word) : (s.writeStatus v).chkResult = s.chkResult := rfl
@[simp] theorem State.writeStatus_skipStart (v : Word) : (s.writeStatus v).skipStart = s.skipStart := rfl
@[simp] theorem State.writeStatus_skipEnd (v : Word) : (s.writeStatus v).skipEnd = s.skipEnd := rfl
@[simp] theorem State.writeStatus_dest (v : Word) : (s.writeStatus v).dest = s.dest := rfl
@[simp] theorem State.writeStatus_src (v : Word) : (s.writeStatus v).src = s.src := rfl
@[simp] theorem State.writeStatus_bssid (v : Word) : (s.writeStatus v).bssid = s.bssid := rfl
@[simp] theorem State.writeStatus_addr4 (v : Word) : (s.writeStatus v).addr4 = s.addr4 := rfl
@[simp] theorem State.writeStatus_pay (v : Word) : (s.writeStatus v).pay = s.pay := rfl
@[simp] theorem State.writeStatus_env (v : Word) : (s.writeStatus v).env = s.env := rfl
@[simp] theorem State.writeStatus_cfg (v : Word) : (s.writeStatus v).cfg = s.cfg := rfl
@[simp] theorem State.writeStatus_script (v : Word) : (s.writeStatus v).script = s.script := rfl
@[simp] theorem State.writeStatus_schedule (v : Word) : (s.writeStatus v).schedule = s.schedule := rfl
@[simp] theorem State.writeStatus_reads (v : Word) : (s.writeStatus v).reads = s.reads := rfl
@[simp] theorem State.writeStatus_draws (v : Word) : (s.writeStatus v).draws = s.draws := rfl

/-! `State.returnWord` writes the host's view alone. -/

@[simp] theorem State.returnWord_alg (w : Word) : (s.returnWord w).alg = s.alg := rfl
@[simp] theorem State.returnWord_ie (w : Word) : (s.returnWord w).ie = s.ie := rfl
@[simp] theorem State.returnWord_done (w : Word) : (s.returnWord w).done = s.done := rfl
@[simp] theorem State.returnWord_haz (w : Word) : (s.returnWord w).haz = s.haz := rfl
@[simp] theorem State.returnWord_integrityOk (w : Word) : (s.returnWord w).integrityOk = s.integrityOk := rfl
@[simp] theorem State.returnWord_err (w : Word) : (s.returnWord w).err = s.err := rfl
@[simp] theorem State.returnWord_pend (w : Word) : (s.returnWord w).pend = s.pend := rfl
@[simp] theorem State.returnWord_startMarker (w : Word) : (s.returnWord w).startMarker = s.startMarker := rfl
@[simp] theorem State.returnWord_endMarker (w : Word) : (s.returnWord w).endMarker = s.endMarker := rfl
@[simp] theorem State.returnWord_envLen (w : Word) : (s.returnWord w).envLen = s.envLen := rfl
@[simp] theorem State.returnWord_fc (w : Word) : (s.returnWord w).fc = s.fc := rfl
@[simp] theorem State.returnWord_duration (w : Word) : (s.returnWord w).duration = s.duration := rfl
@[simp] theorem State.returnWord_seqCtrl (w : Word) : (s.returnWord w).seqCtrl = s.seqCtrl := rfl
@[simp] theorem State.returnWord_plen (w : Word) : (s.returnWord w).plen = s.plen := rfl
@[simp] theorem State.returnWord_fcs (w : Word) : (s.returnWord w).fcs = s.fcs := rfl
@[simp] theorem State.returnWord_chkResult (w : Word) : (s.returnWord w).chkResult = s.chkResult := rfl
@[simp] theorem State.returnWord_skipStart (w : Word) : (s.returnWord w).skipStart = s.skipStart := rfl
@[simp] theorem State.returnWord_skipEnd (w : Word) : (s.returnWord w).skipEnd = s.skipEnd := rfl
@[simp] theorem State.returnWord_dest (w : Word) : (s.returnWord w).dest = s.dest := rfl
@[simp] theorem State.returnWord_src (w : Word) : (s.returnWord w).src = s.src := rfl
@[simp] theorem State.returnWord_bssid (w : Word) : (s.returnWord w).bssid = s.bssid := rfl
@[simp] theorem State.returnWord_addr4 (w : Word) : (s.returnWord w).addr4 = s.addr4 := rfl
@[simp] theorem State.returnWord_pay (w : Word) : (s.returnWord w).pay = s.pay := rfl
@[simp] theorem State.returnWord_env (w : Word) : (s.returnWord w).env = s.env := rfl
@[simp] theorem State.returnWord_cfg (w : Word) : (s.returnWord w).cfg = s.cfg := rfl
@[simp] theorem State.returnWord_script (w : Word) : (s.returnWord w).script = s.script := rfl
@[simp] theorem State.returnWord_schedule (w : Word) : (s.returnWord w).schedule = s.schedule := rfl
@[simp] theorem State.returnWord_reads (w : Word) : (s.returnWord w).reads = w :: s.reads := rfl
@[simp] theorem State.returnWord_draws (w : Word) : (s.returnWord w).draws = s.draws := rfl

/-! `State.returnDraw` writes the host's view and the counter of free values alone. -/

@[simp] theorem State.returnDraw_alg : s.returnDraw.alg = s.alg := rfl
@[simp] theorem State.returnDraw_ie : s.returnDraw.ie = s.ie := rfl
@[simp] theorem State.returnDraw_done : s.returnDraw.done = s.done := rfl
@[simp] theorem State.returnDraw_haz : s.returnDraw.haz = s.haz := rfl
@[simp] theorem State.returnDraw_integrityOk : s.returnDraw.integrityOk = s.integrityOk := rfl
@[simp] theorem State.returnDraw_err : s.returnDraw.err = s.err := rfl
@[simp] theorem State.returnDraw_pend : s.returnDraw.pend = s.pend := rfl
@[simp] theorem State.returnDraw_startMarker : s.returnDraw.startMarker = s.startMarker := rfl
@[simp] theorem State.returnDraw_endMarker : s.returnDraw.endMarker = s.endMarker := rfl
@[simp] theorem State.returnDraw_envLen : s.returnDraw.envLen = s.envLen := rfl
@[simp] theorem State.returnDraw_fc : s.returnDraw.fc = s.fc := rfl
@[simp] theorem State.returnDraw_duration : s.returnDraw.duration = s.duration := rfl
@[simp] theorem State.returnDraw_seqCtrl : s.returnDraw.seqCtrl = s.seqCtrl := rfl
@[simp] theorem State.returnDraw_plen : s.returnDraw.plen = s.plen := rfl
@[simp] theorem State.returnDraw_fcs : s.returnDraw.fcs = s.fcs := rfl
@[simp] theorem State.returnDraw_chkResult : s.returnDraw.chkResult = s.chkResult := rfl
@[simp] theorem State.returnDraw_skipStart : s.returnDraw.skipStart = s.skipStart := rfl
@[simp] theorem State.returnDraw_skipEnd : s.returnDraw.skipEnd = s.skipEnd := rfl
@[simp] theorem State.returnDraw_dest : s.returnDraw.dest = s.dest := rfl
@[simp] theorem State.returnDraw_src : s.returnDraw.src = s.src := rfl
@[simp] theorem State.returnDraw_bssid : s.returnDraw.bssid = s.bssid := rfl
@[simp] theorem State.returnDraw_addr4 : s.returnDraw.addr4 = s.addr4 := rfl
@[simp] theorem State.returnDraw_pay : s.returnDraw.pay = s.pay := rfl
@[simp] theorem State.returnDraw_env : s.returnDraw.env = s.env := rfl
@[simp] theorem State.returnDraw_cfg : s.returnDraw.cfg = s.cfg := rfl
@[simp] theorem State.returnDraw_script : s.returnDraw.script = s.script := rfl
@[simp] theorem State.returnDraw_schedule : s.returnDraw.schedule = s.schedule := rfl
@[simp] theorem State.returnDraw_reads : s.returnDraw.reads = Config.busyRead s.draws :: s.reads := rfl
@[simp] theorem State.returnDraw_draws : s.returnDraw.draws = s.draws + 1 := rfl

/-! `State.takeTurn` shortens the schedule alone. -/

@[simp] theorem State.takeTurn_alg : s.takeTurn.alg = s.alg := rfl
@[simp] theorem State.takeTurn_ie : s.takeTurn.ie = s.ie := rfl
@[simp] theorem State.takeTurn_done : s.takeTurn.done = s.done := rfl
@[simp] theorem State.takeTurn_haz : s.takeTurn.haz = s.haz := rfl
@[simp] theorem State.takeTurn_integrityOk : s.takeTurn.integrityOk = s.integrityOk := rfl
@[simp] theorem State.takeTurn_err : s.takeTurn.err = s.err := rfl
@[simp] theorem State.takeTurn_pend : s.takeTurn.pend = s.pend := rfl
@[simp] theorem State.takeTurn_startMarker : s.takeTurn.startMarker = s.startMarker := rfl
@[simp] theorem State.takeTurn_endMarker : s.takeTurn.endMarker = s.endMarker := rfl
@[simp] theorem State.takeTurn_envLen : s.takeTurn.envLen = s.envLen := rfl
@[simp] theorem State.takeTurn_fc : s.takeTurn.fc = s.fc := rfl
@[simp] theorem State.takeTurn_duration : s.takeTurn.duration = s.duration := rfl
@[simp] theorem State.takeTurn_seqCtrl : s.takeTurn.seqCtrl = s.seqCtrl := rfl
@[simp] theorem State.takeTurn_plen : s.takeTurn.plen = s.plen := rfl
@[simp] theorem State.takeTurn_fcs : s.takeTurn.fcs = s.fcs := rfl
@[simp] theorem State.takeTurn_chkResult : s.takeTurn.chkResult = s.chkResult := rfl
@[simp] theorem State.takeTurn_skipStart : s.takeTurn.skipStart = s.skipStart := rfl
@[simp] theorem State.takeTurn_skipEnd : s.takeTurn.skipEnd = s.skipEnd := rfl
@[simp] theorem State.takeTurn_dest : s.takeTurn.dest = s.dest := rfl
@[simp] theorem State.takeTurn_src : s.takeTurn.src = s.src := rfl
@[simp] theorem State.takeTurn_bssid : s.takeTurn.bssid = s.bssid := rfl
@[simp] theorem State.takeTurn_addr4 : s.takeTurn.addr4 = s.addr4 := rfl
@[simp] theorem State.takeTurn_pay : s.takeTurn.pay = s.pay := rfl
@[simp] theorem State.takeTurn_env : s.takeTurn.env = s.env := rfl
@[simp] theorem State.takeTurn_cfg : s.takeTurn.cfg = s.cfg := rfl
@[simp] theorem State.takeTurn_script : s.takeTurn.script = s.script := rfl
@[simp] theorem State.takeTurn_schedule : s.takeTurn.schedule = s.schedule.tail := rfl
@[simp] theorem State.takeTurn_reads : s.takeTurn.reads = s.reads := rfl
@[simp] theorem State.takeTurn_draws : s.takeTurn.draws = s.draws := rfl

/-! `State.afterMove` shortens the schedule and the script alone. -/

@[simp] theorem State.afterMove_alg : s.afterMove.alg = s.alg := rfl
@[simp] theorem State.afterMove_ie : s.afterMove.ie = s.ie := rfl
@[simp] theorem State.afterMove_done : s.afterMove.done = s.done := rfl
@[simp] theorem State.afterMove_haz : s.afterMove.haz = s.haz := rfl
@[simp] theorem State.afterMove_integrityOk : s.afterMove.integrityOk = s.integrityOk := rfl
@[simp] theorem State.afterMove_err : s.afterMove.err = s.err := rfl
@[simp] theorem State.afterMove_pend : s.afterMove.pend = s.pend := rfl
@[simp] theorem State.afterMove_startMarker : s.afterMove.startMarker = s.startMarker := rfl
@[simp] theorem State.afterMove_endMarker : s.afterMove.endMarker = s.endMarker := rfl
@[simp] theorem State.afterMove_envLen : s.afterMove.envLen = s.envLen := rfl
@[simp] theorem State.afterMove_fc : s.afterMove.fc = s.fc := rfl
@[simp] theorem State.afterMove_duration : s.afterMove.duration = s.duration := rfl
@[simp] theorem State.afterMove_seqCtrl : s.afterMove.seqCtrl = s.seqCtrl := rfl
@[simp] theorem State.afterMove_plen : s.afterMove.plen = s.plen := rfl
@[simp] theorem State.afterMove_fcs : s.afterMove.fcs = s.fcs := rfl
@[simp] theorem State.afterMove_chkResult : s.afterMove.chkResult = s.chkResult := rfl
@[simp] theorem State.afterMove_skipStart : s.afterMove.skipStart = s.skipStart := rfl
@[simp] theorem State.afterMove_skipEnd : s.afterMove.skipEnd = s.skipEnd := rfl
@[simp] theorem State.afterMove_dest : s.afterMove.dest = s.dest := rfl
@[simp] theorem State.afterMove_src : s.afterMove.src = s.src := rfl
@[simp] theorem State.afterMove_bssid : s.afterMove.bssid = s.bssid := rfl
@[simp] theorem State.afterMove_addr4 : s.afterMove.addr4 = s.addr4 := rfl
@[simp] theorem State.afterMove_pay : s.afterMove.pay = s.pay := rfl
@[simp] theorem State.afterMove_env : s.afterMove.env = s.env := rfl
@[simp] theorem State.afterMove_cfg : s.afterMove.cfg = s.cfg := rfl
@[simp] theorem State.afterMove_script : s.afterMove.script = s.script.tail := rfl
@[simp] theorem State.afterMove_schedule : s.afterMove.schedule = s.schedule.tail := rfl
@[simp] theorem State.afterMove_reads : s.afterMove.reads = s.reads := rfl
@[simp] theorem State.afterMove_draws : s.afterMove.draws = s.draws := rfl

/-! `State.assertReset` gives every field its reset value (70_reset_and_hazards.md R112). -/

@[simp] theorem State.assertReset_alg : s.assertReset.alg = false := rfl
@[simp] theorem State.assertReset_ie : s.assertReset.ie = false := rfl
@[simp] theorem State.assertReset_done : s.assertReset.done = false := rfl
@[simp] theorem State.assertReset_haz : s.assertReset.haz = false := rfl
@[simp] theorem State.assertReset_integrityOk : s.assertReset.integrityOk = false := rfl
@[simp] theorem State.assertReset_err : s.assertReset.err = 0 := rfl
@[simp] theorem State.assertReset_pend : s.assertReset.pend = none := rfl
@[simp] theorem State.assertReset_startMarker : s.assertReset.startMarker = s.cfg.startMarkerReset := rfl
@[simp] theorem State.assertReset_endMarker : s.assertReset.endMarker = s.cfg.endMarkerReset := rfl
@[simp] theorem State.assertReset_envLen : s.assertReset.envLen = 0 := rfl
@[simp] theorem State.assertReset_fc : s.assertReset.fc = 0 := rfl
@[simp] theorem State.assertReset_duration : s.assertReset.duration = 0 := rfl
@[simp] theorem State.assertReset_seqCtrl : s.assertReset.seqCtrl = 0 := rfl
@[simp] theorem State.assertReset_plen : s.assertReset.plen = 0 := rfl
@[simp] theorem State.assertReset_fcs : s.assertReset.fcs = 0 := rfl
@[simp] theorem State.assertReset_chkResult : s.assertReset.chkResult = 0 := rfl
@[simp] theorem State.assertReset_skipStart : s.assertReset.skipStart = 0 := rfl
@[simp] theorem State.assertReset_skipEnd : s.assertReset.skipEnd = 0 := rfl
@[simp] theorem State.assertReset_dest : s.assertReset.dest = .zero := rfl
@[simp] theorem State.assertReset_src : s.assertReset.src = .zero := rfl
@[simp] theorem State.assertReset_bssid : s.assertReset.bssid = .zero := rfl
@[simp] theorem State.assertReset_addr4 : s.assertReset.addr4 = .zero := rfl
@[simp] theorem State.assertReset_pay : s.assertReset.pay = Memory.ofFn s.cfg.maxPayload (Config.payInit s.draws) := rfl
@[simp] theorem State.assertReset_env : s.assertReset.env = Memory.ofFn s.cfg.maxEnvelope (Config.envInit s.draws) := rfl
@[simp] theorem State.assertReset_cfg : s.assertReset.cfg = s.cfg := rfl
@[simp] theorem State.assertReset_script : s.assertReset.script = s.script := rfl
@[simp] theorem State.assertReset_schedule : s.assertReset.schedule = s.schedule := rfl
@[simp] theorem State.assertReset_reads : s.assertReset.reads = s.reads := rfl
@[simp] theorem State.assertReset_draws : s.assertReset.draws = s.draws + 1 := rfl

end Sys2Proof.Machine
end

