-- ==== Sys2Proof/Laws/Memory.lean ====
section
/-! SUPPORT. The byte buffers: read after write, the canonical form kept by every operation, and bytes as lists. -/

namespace Sys2Proof.Machine

/-! ### Reading one byte -/

@[simp] theorem Memory.read_nil (i : Nat) : Memory.read [] i = 0 := rfl

@[simp] theorem Memory.read_cons (c : Host.Cell) (m : Memory) (i : Nat) :
    Memory.read (c :: m) i = if c.1 = i then c.2 else Memory.read m i := rfl

theorem Memory.read_append_right {m : Memory} {i : Nat} (h : ∀ c ∈ m, c.1 ≠ i) (m' : Memory) :
    Memory.read (m ++ m') i = Memory.read m' i := by
  induction m with
  | nil => rfl
  | cons c m ih =>
    have hc : c.1 ≠ i := h c (by simp)
    simpa [hc] using ih fun d hd => h d (by simp [hd])

theorem Memory.read_of_unlisted {m : Memory} {i : Nat} (h : ∀ c ∈ m, c.1 ≠ i) : Memory.read m i = 0 := by
  simpa using Memory.read_append_right h []

theorem Memory.read_append_left (m : Memory) {m' : Memory} {i : Nat} (h : ∀ c ∈ m', c.1 ≠ i) :
    Memory.read (m ++ m') i = Memory.read m i := by
  induction m with
  | nil => exact Memory.read_of_unlisted h
  | cons c m ih => simp [ih]

theorem Memory.read_filter {p : Nat → Bool} {i : Nat} (hp : p i = true) (m : Memory) :
    Memory.read (m.filter fun c => p c.1) i = Memory.read m i := by
  induction m with
  | nil => rfl
  | cons c m ih =>
    by_cases hc : p c.1 = true
    · simp [hc, ih]
    · have : c.1 ≠ i := fun h => hc (h ▸ hp)
      simp [hc, ih, this]

theorem Memory.cells_bounds {a : Nat} {bs : List Byte} {c : Host.Cell} (h : c ∈ Memory.cells a bs) :
    a ≤ c.1 ∧ c.1 < a + bs.length := by
  induction bs generalizing a with
  | nil => simp [Memory.cells] at h
  | cons v vs ih =>
    simp only [Memory.cells] at h
    simp only [List.length_cons]
    split at h
    · have := ih h
      omega
    · rcases List.mem_cons.1 h with rfl | h
      · simp
      · have := ih h
        omega

theorem Memory.read_cells (a : Nat) (bs : List Byte) (i : Nat) :
    Memory.read (Memory.cells a bs) i = if a ≤ i then bs.getD (i - a) 0 else 0 := by
  induction bs generalizing a with
  | nil => simp [Memory.cells]
  | cons v vs ih =>
    have hstep : a < i → i - a = i - (a + 1) + 1 := by omega
    have h0 : (v :: vs).getD 0 0 = v := rfl
    rcases Nat.lt_trichotomy i a with hi | rfl | hi
    · have h2 : ¬a + 1 ≤ i := by omega
      have h3 : a ≠ i := by omega
      rw [if_neg (by omega)]
      simp only [Memory.cells]
      split <;> simp [ih, h2, h3]
    · have h2 : ¬i + 1 ≤ i := by omega
      rw [if_pos (le_refl i), Nat.sub_self, h0]
      simp only [Memory.cells]
      split
      · next hv => simp [ih, hv, Memory.unlisted]
      · simp
    · have h2 : a + 1 ≤ i := by omega
      have h3 : a ≠ i := by omega
      rw [if_pos (by omega), hstep hi]
      simp only [Memory.cells]
      split <;> simp [ih, h2, h3]

/-- Read after write: a stored byte reads back, every other byte is unchanged. -/
theorem Memory.read_write (m : Memory) (a : Nat) (bs : List Byte) (i : Nat) :
    Memory.read (m.write a bs) i = if a ≤ i ∧ i < a + bs.length then bs.getD (i - a) 0 else Memory.read m i := by
  have hlow : ∀ c ∈ m.filter (fun c => decide (c.1 < a)), c.1 < a := by simp
  have hhigh : ∀ c ∈ m.filter (fun c => decide (a + bs.length ≤ c.1)), a + bs.length ≤ c.1 := by simp
  have hmid : ∀ c ∈ Memory.cells a bs, a ≤ c.1 ∧ c.1 < a + bs.length := fun c hc => Memory.cells_bounds hc
  unfold Memory.write
  rcases Nat.lt_or_ge i a with hi | hi
  · rw [if_neg (by omega), List.append_assoc, Memory.read_append_left]
    · exact Memory.read_filter (p := fun x => decide (x < a)) (by simpa using hi) m
    · intro c hc
      rcases List.mem_append.1 hc with hc | hc
      · have := hmid c hc; omega
      · have := hhigh c hc; omega
  · rw [List.append_assoc, Memory.read_append_right (fun c hc => by have := hlow c hc; omega)]
    rcases Nat.lt_or_ge i (a + bs.length) with hi' | hi'
    · rw [if_pos ⟨hi, hi'⟩, Memory.read_append_left _ (fun c hc => by have := hhigh c hc; omega),
        Memory.read_cells, if_pos hi]
    · rw [if_neg (by omega), Memory.read_append_right (fun c hc => by have := hmid c hc; omega)]
      exact Memory.read_filter (p := fun x => decide (a + bs.length ≤ x)) (by simpa using hi') m

/-- Storing the same bytes twice is storing them once. -/
theorem Memory.write_write (m : Memory) (a : Nat) (bs : List Byte) : (m.write a bs).write a bs = m.write a bs := by
  have hc : ∀ c ∈ Memory.cells a bs, a ≤ c.1 ∧ c.1 < a + bs.length := fun c h => Memory.cells_bounds h
  have low : (Memory.cells a bs).filter (fun c => decide (c.1 < a)) = [] := by
    rw [List.filter_eq_nil_iff]
    intro c h
    have := hc c h
    simp
    omega
  have high : (Memory.cells a bs).filter (fun c => decide (a + bs.length ≤ c.1)) = [] := by
    rw [List.filter_eq_nil_iff]
    intro c h
    have := hc c h
    simp
    omega
  have highLow : (m.filter fun c => decide (a + bs.length ≤ c.1)).filter (fun c => decide (c.1 < a)) = [] := by
    rw [List.filter_eq_nil_iff]
    intro c h
    have := (List.mem_filter.1 h).2
    simp at this ⊢
    omega
  have lowHigh : (m.filter fun c => decide (c.1 < a)).filter (fun c => decide (a + bs.length ≤ c.1)) = [] := by
    rw [List.filter_eq_nil_iff]
    intro c h
    have := (List.mem_filter.1 h).2
    simp at this ⊢
    omega
  simp [Memory.write, List.filter_append, low, high, highLow, lowHigh]

/-! ### The canonical form -/

theorem Memory.cells_wf (a : Nat) (bs : List Byte) : Memory.wf (Memory.cells a bs) := by
  induction bs generalizing a with
  | nil => exact ⟨List.Pairwise.nil, by simp [Memory.cells]⟩
  | cons v vs ih =>
    simp only [Memory.cells]
    split
    · exact ih (a + 1)
    · next hv =>
      refine ⟨List.pairwise_cons.2 ⟨fun c hc => ?_, (ih (a + 1)).1⟩, ?_⟩
      · have := Memory.cells_bounds hc
        show a < c.1
        omega
      · intro c hc
        rcases List.mem_cons.1 hc with rfl | hc
        · exact hv
        · exact (ih (a + 1)).2 c hc

/-- A write keeps the canonical form. -/
theorem Memory.write_wf {m : Memory} (h : Memory.wf m) (a : Nat) (bs : List Byte) : Memory.wf (m.write a bs) := by
  have hc := Memory.cells_wf a bs
  constructor
  · refine List.pairwise_append.2 ⟨List.pairwise_append.2 ⟨h.1.filter _, hc.1, ?_⟩, h.1.filter _, ?_⟩
    · intro c hcm d hd
      have h1 : c.1 < a := by simpa using (List.mem_filter.1 hcm).2
      have h2 := Memory.cells_bounds hd
      omega
    · intro c hcm d hd
      have h2 : a + bs.length ≤ d.1 := by simpa using (List.mem_filter.1 hd).2
      rcases List.mem_append.1 hcm with hcm | hcm
      · have h1 : c.1 < a := by simpa using (List.mem_filter.1 hcm).2
        omega
      · have := Memory.cells_bounds hcm
        omega
  · intro c hcm
    rcases List.mem_append.1 hcm with hcm | hcm
    · rcases List.mem_append.1 hcm with hcm | hcm
      · exact h.2 c (List.mem_filter.1 hcm).1
      · exact hc.2 c hcm
    · exact h.2 c (List.mem_filter.1 hcm).1

/-- A write below the capacity lists no byte at or above it. -/
theorem Memory.write_within {cap : Nat} {m : Memory} (h : Memory.within cap m) {a : Nat} {bs : List Byte}
    (ha : bs = [] ∨ a + bs.length ≤ cap) : Memory.within cap (m.write a bs) := by
  intro c hc
  rcases List.mem_append.1 hc with hc | hc
  · rcases List.mem_append.1 hc with hc | hc
    · exact h c (List.mem_filter.1 hc).1
    · have := Memory.cells_bounds hc
      rcases ha with rfl | ha
      · simp [Memory.cells] at hc
      · omega
  · exact h c (List.mem_filter.1 hc).1

theorem Memory.store_wf {m : Memory} (h : Memory.wf m) (cap a : Nat) (bs : List Byte) :
    Memory.wf (Memory.store cap m a bs) := Memory.write_wf h a _

theorem Memory.store_within {cap : Nat} {m : Memory} (h : Memory.within cap m) (a : Nat) (bs : List Byte) :
    Memory.within cap (Memory.store cap m a bs) := by
  refine Memory.write_within h ?_
  rcases Nat.lt_or_ge a cap with ha | ha
  · right
    simp only [List.length_take]
    omega
  · left
    simp [Nat.sub_eq_zero_of_le ha]

theorem Memory.ofFn_wf (cap : Nat) (f : Nat → Byte) : Memory.wf (Memory.ofFn cap f) := Memory.cells_wf 0 _

theorem Memory.ofFn_within (cap : Nat) (f : Nat → Byte) : Memory.within cap (Memory.ofFn cap f) := by
  intro c hc
  have := Memory.cells_bounds hc
  simp only [List.length_map, List.length_range] at this
  omega

/-! ### Capacity-checked access -/

theorem Memory.read_store (cap : Nat) (m : Memory) (a : Nat) (bs : List Byte) (i : Nat) :
    Memory.read (Memory.store cap m a bs) i
      = if a ≤ i ∧ i < a + bs.length ∧ i < cap then bs.getD (i - a) 0 else Memory.read m i := by
  unfold Memory.store
  rw [Memory.read_write]
  by_cases h : a ≤ i ∧ i < a + bs.length ∧ i < cap
  · have h' : a ≤ i ∧ i < a + (bs.take (cap - a)).length := by
      simp only [List.length_take]
      omega
    have hi : i - a < cap - a := by omega
    rw [if_pos h, if_pos h']
    simp [List.getD_eq_getElem?_getD, hi]
  · have h' : ¬(a ≤ i ∧ i < a + (bs.take (cap - a)).length) := by
      simp only [List.length_take]
      omega
    rw [if_neg h, if_neg h']

theorem Memory.read_ofFn (cap : Nat) (f : Nat → Byte) (i : Nat) :
    Memory.read (Memory.ofFn cap f) i = if i < cap then f i else 0 := by
  unfold Memory.ofFn
  rw [Memory.read_cells]
  by_cases h : i < cap <;> simp [h, List.getD_eq_getElem?_getD]

theorem Memory.loadByte_of_lt {cap i : Nat} (h : i < cap) (m : Memory) : Memory.loadByte cap m i = m.read i := if_pos h

theorem Memory.loadByte_of_ge {cap i : Nat} (h : cap ≤ i) (m : Memory) : Memory.loadByte cap m i = 0 :=
  if_neg (by omega)

/-- Reading one byte after a store. -/
theorem Memory.loadByte_store (cap : Nat) (m : Memory) (a : Nat) (bs : List Byte) (i : Nat) :
    Memory.loadByte cap (Memory.store cap m a bs) i
      = if a ≤ i ∧ i < a + bs.length ∧ i < cap then bs.getD (i - a) 0 else Memory.loadByte cap m i := by
  unfold Memory.loadByte
  rw [Memory.read_store]
  by_cases h : i < cap <;> simp [h]

@[simp] theorem Memory.length_load (cap : Nat) (m : Memory) (i n : Nat) : (Memory.load cap m i n).length = n := by
  simp [Memory.load]

theorem Memory.load_succ (cap : Nat) (m : Memory) (i n : Nat) :
    Memory.load cap m i (n + 1) = Memory.loadByte cap m i :: Memory.load cap m (i + 1) n := by
  simp [Memory.load, List.range_succ_eq_map, Nat.add_comm, Nat.add_left_comm]

theorem Memory.load_append (cap : Nat) (m : Memory) (i j k : Nat) :
    Memory.load cap m i (j + k) = Memory.load cap m i j ++ Memory.load cap m (i + j) k := by
  simp [Memory.load, List.range_add, Nat.add_assoc, Function.comp_def]

/-- Bytes of two buffers are equal as a list where they are equal one by one. -/
theorem Memory.load_congr {cap cap' : Nat} {m m' : Memory} {i n : Nat}
    (h : ∀ k, i ≤ k → k < i + n → Memory.loadByte cap m k = Memory.loadByte cap' m' k) :
    Memory.load cap m i n = Memory.load cap' m' i n := by
  refine List.map_congr_left fun k hk => h _ (by omega) ?_
  have := List.mem_range.1 hk
  omega

/-- Loading a slice of what was just stored. -/
theorem Memory.load_store_slice {cap : Nat} (m : Memory) {a : Nat} {bs : List Byte} {i n : Nat}
    (hi : a ≤ i) (hn : i + n ≤ a + bs.length) (hcap : i + n ≤ cap) :
    Memory.load cap (Memory.store cap m a bs) i n = (bs.drop (i - a)).take n := by
  refine List.ext_getElem ?_ fun k h1 h2 => ?_
  · simp only [Memory.length_load, List.length_take, List.length_drop]
    omega
  · simp only [Memory.length_load] at h1
    have hk : a ≤ i + k ∧ i + k < a + bs.length ∧ i + k < cap := by omega
    have hlt : i + k - a < bs.length := by omega
    simp only [Memory.load, List.getElem_map, List.getElem_range, Memory.loadByte_store, if_pos hk,
      List.getElem_take, List.getElem_drop, List.getD_eq_getElem?_getD, List.getElem?_eq_getElem hlt, Option.getD_some]
    congr 1
    omega

/-- A load from a buffer that a store below or above the slice has not touched. -/
theorem Memory.load_store_of_disjoint {cap : Nat} (m : Memory) {a : Nat} {bs : List Byte} {i n : Nat}
    (h : i + n ≤ a ∨ a + bs.length ≤ i) : Memory.load cap (Memory.store cap m a bs) i n = Memory.load cap m i n := by
  refine Memory.load_congr fun k h1 h2 => ?_
  rw [Memory.loadByte_store, if_neg (by omega)]

end Sys2Proof.Machine
end

