-- ==== Sys2Proof/Laws/Operands.lean ====
section
/-! SUPPORT. Lengths of the byte sequences, buffers under a state update, and the values of the register map. -/

namespace Sys2Proof.Machine

@[simp] theorem length_be (n v : Nat) : (be n v).length = n := by
  induction n with
  | zero => rfl
  | succ n ih => simp [be, ih]

@[simp] theorem StationId.length_bytes (i : StationId) : i.bytes.length = 6 := rfl

@[simp] theorem length_fcWire (fc : Half) : (fcWire fc).length = 2 := length_be 2 _

@[simp] theorem State.length_payRead (s : State) (i n : Nat) : (s.payRead i n).length = n := Memory.length_load ..

@[simp] theorem State.length_envRead (s : State) (a n : Nat) : (s.envRead a n).length = n := Memory.length_load ..

/-- len(Body()) = 32 + L (41_frame_codec.md R75). -/
theorem State.length_body (s : State) : s.body.length = 32 + s.plen.toNat := by
  simp [State.body]
  omega

/-- len(Envelope(t)) = 44 + L (41_frame_codec.md R76). -/
theorem State.length_envelope (s : State) (t : Word) : (s.envelope t).length = 44 + s.plen.toNat := by
  simp [State.envelope, State.length_body]
  omega

/-- ENV_BUF holds exactly 44 bytes more than PAYLOAD_BUF (00_scope.md R8). -/
theorem Config.maxEnvelope_eq (c : Config) : c.maxEnvelope = c.maxPayload + 44 := rfl

@[simp] theorem length_laneBytes (v : Word) : (laneBytes v).length = 4 := rfl

/-! ### Words put together from bytes and bits -/

theorem toNat_append {n m : Nat} (x : BitVec n) (y : BitVec m) : (x ++ y).toNat = x.toNat * 2 ^ m + y.toNat := by
  rw [BitVec.toNat_append, ← Nat.shiftLeft_add_eq_or_of_lt y.isLt, Nat.shiftLeft_eq]

/-- A u16 by its two bytes. -/
theorem toNat_half (b0 b1 : Byte) : (b0 ++ b1 : Half).toNat = b0.toNat * 2 ^ 8 + b1.toNat := toNat_append b0 b1

/-- A u32 by its four lanes. -/
theorem toNat_word (b0 b1 b2 b3 : Byte) : (b0 ++ b1 ++ b2 ++ b3 : Word).toNat
    = b0.toNat * 2 ^ 24 + b1.toNat * 2 ^ 16 + b2.toNat * 2 ^ 8 + b3.toNat := by
  refine (toNat_append (b0 ++ b1 ++ b2) b3).trans ?_
  rw [toNat_append (b0 ++ b1) b2, toNat_append b0 b1]
  omega

/-- A u32 by its upper lanes, the lower ones 0. -/
theorem toNat_upperWord (b0 b1 : Byte) : (b0 ++ b1 ++ 0#16 : Word).toNat = b0.toNat * 2 ^ 24 + b1.toNat * 2 ^ 16 := by
  refine (toNat_append (b0 ++ b1) 0#16).trans ?_
  rw [toNat_append b0 b1]
  simp
  omega

/-- STATUS as a number (10_state.md R20). -/
theorem State.toNat_statusWord (s : State) : s.statusWord.toNat = s.busy.toNat + 2 * s.done.toNat + 4 * s.haz.toNat
    + 8 * s.integrityOk.toNat + 256 * s.err.toNat := by
  refine (toNat_append _ (BitVec.ofBool s.busy)).trans ?_
  rw [toNat_append _ (BitVec.ofBool s.done), toNat_append _ (BitVec.ofBool s.haz),
    toNat_append _ (BitVec.ofBool s.integrityOk), toNat_append _ 0#4, toNat_append 0#20 s.err]
  simp only [BitVec.toNat_ofBool, BitVec.toNat_ofNat, Nat.zero_mod, Nat.zero_mul, Nat.zero_add]
  omega

/-- CONFIG as a number (10_state.md R19). -/
theorem State.toNat_configWord (s : State) : s.configWord.toNat = s.alg.toNat + 2 * s.ie.toNat := by
  refine (toNat_append _ (BitVec.ofBool s.alg)).trans ?_
  rw [toNat_append 0#30 (BitVec.ofBool s.ie)]
  simp only [BitVec.toNat_ofBool, BitVec.toNat_ofNat, Nat.zero_mod, Nat.zero_mul, Nat.zero_add]
  omega

/-! ### What Body() and CK read -/

/-- Body() depends on the frame registers and the payload bytes below PLEN alone (41_frame_codec.md R75). -/
theorem State.body_congr {s u : State} (h : s.AgreeOnFrame u) : s.body = u.body := by
  have hp : s.payRead 0 s.plen.toNat = u.payRead 0 s.plen.toNat :=
    Memory.load_congr fun k _ hk => h.pay k (by omega)
  simp only [State.body, hp, h.fc, h.duration, h.dest, h.src, h.bssid, h.seqCtrl, h.addr4, ← h.plen]

/-- CK reads CONFIG.ALG alone (42_checksum.md R90). -/
theorem State.ck_congr {s u : State} (h : s.alg = u.alg) (bs : List Byte) : s.ck bs = u.ck bs := by
  simp only [State.ck, h]

/-- A reserved offset selects nothing (10_state.md R32). -/
theorem Target.ofOffset_reserved {off : Nat} (h : (0x60 ≤ off ∧ off < 0x1000) ∨ 0x3000 ≤ off) :
    Target.ofOffset off = .reserved := by
  have hl : Reg.map.lookup off = none := by
    rw [List.lookup_eq_none_iff]
    intro p hp
    have : ∀ p ∈ Reg.map, p.1 < 0x60 := by decide
    have := this p hp
    have hne : off ≠ p.1 := by omega
    simpa using hne
  simp only [Target.ofOffset, hl]
  rw [if_neg (by omega), if_neg (by omega)]

/-- PAYLOAD_BUF's words (10_state.md R16). -/
theorem Target.ofOffset_payWord {k : Nat} (h : k < 1024) : Target.ofOffset (0x1000 + 4 * k) = .payWord k := by
  have hl : Reg.map.lookup (0x1000 + 4 * k) = none := by
    rw [List.lookup_eq_none_iff]
    intro p hp
    have : ∀ p ∈ Reg.map, p.1 < 0x60 := by decide
    have := this p hp
    have hne : 0x1000 + 4 * k ≠ p.1 := by omega
    simpa using hne
  simp only [Target.ofOffset, hl]
  rw [if_pos (by omega)]
  congr 1
  omega

/-- ENV_BUF's words (10_state.md R16). -/
theorem Target.ofOffset_envWord {k : Nat} (h : k < 1024) : Target.ofOffset (0x2000 + 4 * k) = .envWord k := by
  have hl : Reg.map.lookup (0x2000 + 4 * k) = none := by
    rw [List.lookup_eq_none_iff]
    intro p hp
    have : ∀ p ∈ Reg.map, p.1 < 0x60 := by decide
    have := this p hp
    have hne : 0x2000 + 4 * k ≠ p.1 := by omega
    simpa using hne
  simp only [Target.ofOffset, hl]
  rw [if_neg (by omega), if_pos (by omega)]
  congr 1
  omega

/-- An offset that selects a register stands in the register map (10_state.md R16). -/
theorem Target.mem_map_of_ofOffset {off : Nat} {r : Reg} (h : Target.ofOffset off = .reg r) : (off, r) ∈ Reg.map := by
  unfold Target.ofOffset at h
  split at h
  · next r' hr =>
    obtain rfl : r' = r := by simpa using h
    obtain ⟨l, l', e, -⟩ := List.lookup_eq_some_iff.1 hr
    simp [e]
  · split at h
    · simp at h
    · split at h <;> simp at h

theorem Reg.map_status {off : Nat} (h : (off, Reg.status) ∈ Reg.map) : off = 0x00C :=
  (show ∀ p ∈ Reg.map, p.2 = .status → p.1 = 0x00C by decide) _ h rfl

theorem Reg.map_cmd {off : Nat} (h : (off, Reg.cmd) ∈ Reg.map) : off = 0x010 :=
  (show ∀ p ∈ Reg.map, p.2 = .cmd → p.1 = 0x010 by decide) _ h rfl

end Sys2Proof.Machine
end

