-- ==== Sys2Proof/Laws/Exec.lean ====
section
/-! SUPPORT. Each meaning and each turn as one equation, and what every command leaves alone. -/

namespace Sys2Proof.Machine

theorem State.oversize_eq_false {s : State} (h : s.Fits) : s.oversize = false := by
  simpa [State.oversize, State.Fits] using h

theorem State.oversize_eq_true {s : State} (h : ¬s.Fits) : s.oversize = true := by
  simpa [State.oversize, State.Fits] using h

/-! ### The meanings -/

theorem execEncode_of_fits {s : State} (h : s.Fits) : exec .encode s = .next
    ({ s.emit (s.ck s.body) with fcs := s.ck s.body, chkResult := s.ck s.body, integrityOk := true }.complete .ok) := by
  simp [exec, execEncode, State.oversize_eq_false h]

theorem execEncode_of_not_fits {s : State} (h : ¬s.Fits) : exec .encode s = .next (s.failWith .payloadTooLarge) := by
  simp [exec, execEncode, State.oversize_eq_true h]

theorem execEncodeKeep_of_fits {s : State} (h : s.Fits) : exec .encodeKeep s = .next
    ({ s.emit s.fcs with chkResult := s.ck s.body, integrityOk := decide (s.ck s.body = s.fcs) }.complete .ok) := by
  simp [exec, execEncodeKeep, State.oversize_eq_false h]

theorem execEncodeKeep_of_not_fits {s : State} (h : ¬s.Fits) :
    exec .encodeKeep s = .next (s.failWith .payloadTooLarge) := by
  simp [exec, execEncodeKeep, State.oversize_eq_true h]

theorem execVerify_of_fits {s : State} (h : s.Fits) : exec .verify s = .next
    ({ s with chkResult := s.ck s.body, integrityOk := decide (s.ck s.body = s.fcs) }.complete .ok) := by
  simp [exec, execVerify, State.oversize_eq_false h]

theorem execVerify_of_not_fits {s : State} (h : ¬s.Fits) : exec .verify s = .next (s.failWith .payloadTooLarge) := by
  simp [exec, execVerify, State.oversize_eq_true h]

theorem execDecode_of_error {s : State} {e : ErrorCode} (h : s.decodeError = some e) :
    exec .decode s = .next (s.failWith e) := by
  simp [exec, execDecode, h]

theorem execDecode_of_none {s : State} (h : s.decodeError = none) : exec .decode s = .next
    ({ s.loadFrame s.prefixLen with
        fcs := BitVec.ofNat 32 (s.memRead (36 + s.prefixLen) 4)
        chkResult := s.ck (s.envRead 4 (32 + s.prefixLen))
        integrityOk := decide (s.ck (s.envRead 4 (32 + s.prefixLen)) = BitVec.ofNat 32 (s.memRead (36 + s.prefixLen) 4)) }.complete .ok) := by
  simp [exec, execDecode, h]

theorem execChecksum_of_good {s : State} (h : s.goodRange = true) : exec .checksum s = .next
    ({ s with chkResult := s.ck (s.envRead s.skipStart.toNat (s.envLen.toNat - s.skipEnd.toNat - s.skipStart.toNat)) }.complete .ok) := by
  simp [exec, execChecksum, h]

theorem execChecksum_of_bad {s : State} (h : s.goodRange = false) :
    exec .checksum s = .next (s.complete .badRange) := by
  simp [exec, execChecksum, h]

/-- The range CHECKSUM accepts, in plain arithmetic (42_checksum.md R88). -/
theorem State.goodRange_iff {s : State} : s.goodRange = true ↔ s.envLen.toNat ≤ s.cfg.maxPayload + 44
    ∧ s.skipStart.toNat + s.skipEnd.toNat ≤ s.envLen.toNat := by
  rw [State.goodRange, decide_eq_true_iff, Config.maxEnvelope_eq]

/-- DECODE's checks all pass exactly on an envelope of 44 + L bytes between the two markers (41_frame_codec.md R79). -/
theorem State.decodeError_eq_none {s : State} : s.decodeError = none ↔
    s.envLen.toNat = 44 + s.prefixLen ∧ s.prefixLen ≤ s.cfg.maxPayload ∧ s.memRead 0 4 = s.startMarker.toNat
      ∧ s.memRead (40 + s.prefixLen) 4 = s.endMarker.toNat := by
  unfold State.decodeError
  simp only []
  repeat' split
  all_goals simp_all
  all_goals omega

/-! ### Turns -/

theorem step_of_engine {s : State} (h : s.turn = .engine) : step s = engineTurn s.takeTurn := by
  simp [step, h]

theorem step_of_host {s : State} (h : s.turn = .host) : step s = hostTurn s.takeTurn := by
  simp [step, h]

theorem engineTurn_of_pend {s : State} {w : Word} (h : s.pend = some w) : engineTurn s = exec (decodeWord w) s := by
  simp [engineTurn, State.pending, h]

theorem engineTurn_of_idle {s : State} (h : s.pend = none) : engineTurn s = .next s := by
  simp [engineTurn, State.pending, h]

/-- The host's turn by its move. -/
theorem step_of_hostNext {s : State} {m : HostMove} (h : s.HostNext m) : step s = match m with
    | .read off => hostRead off s.afterMove
    | .write off v => hostWrite off v s.afterMove
    | .wait => .next (hostWait s.afterMove)
    | .reset => .next s.afterMove.assertReset := by
  obtain ⟨ht, hm⟩ := h
  obtain ⟨rest, hs⟩ : ∃ rest, s.script = m :: rest := by
    cases hsc : s.script with
    | nil => simp [hsc] at hm
    | cons a r => simp [hsc] at hm; exact ⟨r, by rw [hm]⟩
  rw [step_of_host ht]
  cases m <;> simp [hostTurn, State.takeTurn, State.afterMove, hs]

/-- Every step is the engine's turn on a pending command, an idle turn, or one of the host's moves. -/
theorem step_cases (s : State) :
    (∃ w, s.turn = .engine ∧ s.pend = some w ∧ step s = exec (decodeWord w) s.takeTurn)
      ∨ step s = .next s.takeTurn
      ∨ ∃ m, s.HostNext m := by
  cases ht : s.turn with
  | engine =>
    rw [step_of_engine ht]
    cases hp : s.pend with
    | none => exact .inr (.inl (engineTurn_of_idle hp))
    | some w => exact .inl ⟨w, rfl, rfl, engineTurn_of_pend hp⟩
  | host =>
    cases hs : s.script with
    | nil =>
      refine .inr (.inl ?_)
      rw [step_of_host ht]
      simp [hostTurn, hs]
    | cons m rest => exact .inr (.inr ⟨m, ht, by simp [hs]⟩)

/-! ### What every command leaves alone -/

/-- The state a command ends in, and the parts of the state that no command writes. -/
theorem exec_spec (i : Instr) (s : State) : ∃ t, exec i s = .next t ∧ t.pend = none ∧ t.done = true
    ∧ t.haz = s.haz ∧ t.alg = s.alg ∧ t.ie = s.ie ∧ t.startMarker = s.startMarker ∧ t.endMarker = s.endMarker
    ∧ t.cfg = s.cfg ∧ t.script = s.script ∧ t.schedule = s.schedule ∧ t.reads = s.reads ∧ t.draws = s.draws := by
  cases i with
  | nop => exact ⟨_, rfl, by simp⟩
  | encode =>
    by_cases h : s.Fits
    · exact ⟨_, execEncode_of_fits h, by simp⟩
    · exact ⟨_, execEncode_of_not_fits h, by simp⟩
  | encodeKeep =>
    by_cases h : s.Fits
    · exact ⟨_, execEncodeKeep_of_fits h, by simp⟩
    · exact ⟨_, execEncodeKeep_of_not_fits h, by simp⟩
  | decode =>
    cases h : s.decodeError with
    | none => exact ⟨_, execDecode_of_none h, by simp⟩
    | some e => exact ⟨_, execDecode_of_error h, by simp⟩
  | verify =>
    by_cases h : s.Fits
    · exact ⟨_, execVerify_of_fits h, by simp⟩
    · exact ⟨_, execVerify_of_not_fits h, by simp⟩
  | checksum =>
    by_cases h : s.goodRange = true
    · exact ⟨_, execChecksum_of_good h, by simp⟩
    · exact ⟨_, execChecksum_of_bad (by simpa using h), by simp⟩
  | clear => exact ⟨_, rfl, by simp⟩
  | reserved w => exact ⟨_, rfl, by simp⟩

end Sys2Proof.Machine
end

