-- ==== Sys2Proof/Laws/Host.lean ====
section
/-! SUPPORT. The host's turn: one equation per kind of transaction, and one inversion over all of its moves. -/

namespace Sys2Proof.Machine

/-- What an offset selects does not depend on the host's side of the state. -/
theorem State.afterMove_targetWord (s : State) (t : Target) : s.afterMove.targetWord t = s.targetWord t := by
  cases t with
  | reg r => cases r <;> rfl
  | _ => rfl

/-- A read that returns a value: any legal offset while idle, the stable ones while busy. -/
theorem step_read {s : State} {off : Nat} (h : s.HostNext (.read off)) (hl : legalOffset off = true)
    (hb : s.busy = false ∨ (Target.ofOffset off).stableWhileBusy = true) :
    step s = .next { s.afterMove with reads := s.targetWord (Target.ofOffset off) :: s.reads } := by
  have hb' : (s.afterMove.busy && !(Target.ofOffset off).stableWhileBusy) = false := by
    rcases hb with hb | hb
    · have : s.afterMove.busy = false := hb
      simp [this]
    · simp [hb]
  rw [step_of_hostNext h]
  simp only [hostRead, hl, hb', if_true]
  rw [State.returnWord, State.afterMove_targetWord]
  rfl

/-- A read of a result-bearing offset while busy draws a free value. -/
theorem step_read_busy {s : State} {off : Nat} (h : s.HostNext (.read off)) (hl : legalOffset off = true)
    (hb : s.busy = true) (hs : (Target.ofOffset off).stableWhileBusy = false) :
    step s = .next { s.afterMove with reads := Config.busyRead s.draws :: s.reads, draws := s.draws + 1 } := by
  have hb' : s.afterMove.busy = true := hb
  rw [step_of_hostNext h]
  simp only [hostRead, hl, hb', hs, State.returnDraw]
  rfl

/-- An idle write acts on what its offset selects. -/
theorem step_write_idle {s : State} {off : Nat} {v : Word} (h : s.HostNext (.write off v)) (hl : legalOffset off = true)
    (hb : s.busy = false) : step s = .next (s.afterMove.writeTarget v (Target.ofOffset off)) := by
  have hb' : s.afterMove.busy = false := hb
  rw [step_of_hostNext h]
  simp [hostWrite, hl, hb']

/-- A busy write of another target than STATUS is refused. -/
theorem step_write_busy {s : State} {off : Nat} {v : Word} (h : s.HostNext (.write off v)) (hl : legalOffset off = true)
    (hb : s.busy = true) (hT : Target.ofOffset off ≠ .reg .status) : step s = .next { s.afterMove with haz := true } := by
  have hb' : s.afterMove.busy = true := hb
  rw [step_of_hostNext h]
  simp [hostWrite, hl, hb', hT]

/-- A write of STATUS, idle or busy. -/
theorem step_write_status {s : State} {v : Word} (h : s.HostNext (.write 0x00C v)) :
    step s = .next (s.afterMove.writeStatus v) := by
  have hT : Target.ofOffset 0x00C = .reg .status := by decide
  rw [step_of_hostNext h]
  simp only [hostWrite, hT]
  simp [show legalOffset 0x00C = true by decide]
  rfl

/-- Everything a move of the host can do, where it answers a next state. -/
theorem hostMove_cases {s t : State} {m : HostMove} (h : s.HostNext m) (ht : step s = .next t) :
    (∃ off x d, m = .read off ∧ t = { s.afterMove with reads := x :: s.reads, draws := d })
      ∨ (∃ sc, m = .wait ∧ t = { s.afterMove with reads := s.statusWord :: s.reads, script := sc })
      ∨ (m = .reset ∧ t = s.afterMove.assertReset)
      ∨ (∃ v, m = .write 0x00C v ∧ t = s.afterMove.writeStatus v)
      ∨ (∃ off v, m = .write off v ∧ s.busy = true ∧ off ≠ 0x00C ∧ t = { s.afterMove with haz := true })
      ∨ ∃ off v, m = .write off v ∧ s.busy = false ∧ off ≠ 0x00C ∧ t = s.afterMove.writeTarget v (Target.ofOffset off) := by
  cases m with
  | reset =>
    rw [step_of_hostNext h] at ht
    injection ht with ht
    exact .inr (.inr (.inl ⟨rfl, ht.symm⟩))
  | wait =>
    rw [step_of_hostNext h] at ht
    injection ht with ht
    exact .inr (.inl ⟨_, rfl, ht.symm⟩)
  | read off =>
    by_cases hl : legalOffset off = true
    · by_cases hs : s.busy = false ∨ (Target.ofOffset off).stableWhileBusy = true
      · rw [step_read h hl hs] at ht
        injection ht with ht
        exact .inl ⟨off, _, s.draws, rfl, ht.symm⟩
      · rw [not_or] at hs
        rw [step_read_busy h hl (by simpa using hs.1) (by simpa using hs.2)] at ht
        injection ht with ht
        exact .inl ⟨off, _, _, rfl, ht.symm⟩
    · rw [step_of_hostNext h] at ht
      simp [hostRead, hl] at ht
  | write off v =>
    by_cases hl : legalOffset off = true
    · by_cases ho : off = 0x00C
      · subst ho
        rw [step_write_status h] at ht
        injection ht with ht
        exact .inr (.inr (.inr (.inl ⟨v, rfl, ht.symm⟩)))
      · have hT : Target.ofOffset off ≠ .reg .status := fun hT =>
          ho (Reg.map_status (Target.mem_map_of_ofOffset hT))
        cases hb : s.busy with
        | false =>
          rw [step_write_idle h hl hb] at ht
          injection ht with ht
          exact .inr (.inr (.inr (.inr (.inr ⟨off, v, rfl, rfl, ho, ht.symm⟩))))
        | true =>
          rw [step_write_busy h hl hb hT] at ht
          injection ht with ht
          exact .inr (.inr (.inr (.inr (.inl ⟨off, v, rfl, rfl, ho, ht.symm⟩))))
    · rw [step_of_hostNext h] at ht
      simp [hostWrite, hl] at ht

end Sys2Proof.Machine
end

