-- ==== Sys2Proof/Laws/PerInstr.lean ====
section
/-! SUPPORT. The statements made for every command: its command word decodes to it. -/

/-- The command word of a well-formed command has the fields 30_encoding.md R57 asks for, and decodes to it. -/
def Sys2Proof.Laws.CommandWord.Statement (i : Sys2Proof.Instr) : Prop :=
  i.wellFormed = true → Sys2Proof.decodeWord (Sys2Proof.encode i) = i

namespace Sys2Proof.Laws.CommandWord

open Sys2Proof

theorem nop : Statement .nop := fun _ => rfl

theorem encode : Statement .encode := fun _ => rfl

theorem encodeKeep : Statement .encodeKeep := fun _ => rfl

theorem decode : Statement .decode := fun _ => rfl

theorem verify : Statement .verify := fun _ => rfl

theorem checksum : Statement .checksum := fun _ => rfl

theorem clear : Statement .clear := fun _ => rfl

/-- RSV = 0 says that the word is its OP field. -/
theorem toNat_of_rsvField {w : Word} (h : rsvField w = 0) : w.toNat = (opField w).toNat := by
  have h' : w.toNat / 16 % 2 ^ 28 = 0 := by
    have := congrArg BitVec.toNat h
    simpa [rsvField, Nat.shiftRight_eq_div_pow] using this
  have := w.isLt
  simp only [opField, BitVec.extractLsb'_toNat, Nat.shiftRight_zero]
  omega

theorem reserved (w : Word) : Statement (.reserved w) := by
  intro h
  have h : 7 ≤ w.toNat := by simpa [Instr.wellFormed] using h
  show decodeWord w = .reserved w
  unfold decodeWord
  by_cases hr : rsvField w = 0
  · rw [if_pos hr]
    have hw := toNat_of_rsvField hr
    generalize (opField w).toNat = n at hw
    match n, hw with
    | 0, hw | 1, hw | 2, hw | 3, hw | 4, hw | 5, hw | 6, hw => omega
    | n + 7, _ => rfl
  · rw [if_neg hr]

end Sys2Proof.Laws.CommandWord
end

