-- ==== Sys2Proof/Tests/Slice0.lean ====
section
/-! SUPPORT. Tests, expected results from spec/95_test_vectors.md and the rules' tables, and a witness for the hypotheses of every obligation. -/

namespace Sys2Proof.Tests

open Sys2Proof Sys2Proof.Machine

/-! ### Well-formedness refuses what is ill-formed -/

theorem test_defined_words_are_not_reserved : ∀ n < 7, (Instr.reserved (BitVec.ofNat 32 n)).wellFormed = false := by decide

theorem test_seven_and_up_are_reserved : (Instr.reserved 7).wellFormed = true
    ∧ (Instr.reserved 0xFFFFFFFF).wellFormed = true := by decide

/-! ### Decoding: words written from the fields of 30_encoding.md R57 and R58, RSV (28 bits) then OP (4 bits) -/

/-- A command word written out by its two fields. -/
def commandWord (rsv : BitVec 28) (op : BitVec 4) : Word := rsv ++ op

theorem test_decode_nop : decodeWord (commandWord 0 0b0000) = .nop ∧ decodeTableWord 32 0 = some .nop := by decide

theorem test_decode_encode : decodeWord (commandWord 0 0b0001) = .encode ∧ decodeTableWord 32 1 = some .encode := by decide

theorem test_decode_encodeKeep : decodeWord (commandWord 0 0b0010) = .encodeKeep
    ∧ decodeTableWord 32 2 = some .encodeKeep := by decide

theorem test_decode_decode : decodeWord (commandWord 0 0b0011) = .decode ∧ decodeTableWord 32 3 = some .decode := by decide

theorem test_decode_verify : decodeWord (commandWord 0 0b0100) = .verify ∧ decodeTableWord 32 4 = some .verify := by decide

theorem test_decode_checksum : decodeWord (commandWord 0 0b0101) = .checksum
    ∧ decodeTableWord 32 5 = some .checksum := by decide

theorem test_decode_clear : decodeWord (commandWord 0 0b0110) = .clear ∧ decodeTableWord 32 6 = some .clear := by decide

/-- CT-5, CT-7 and CT-8: the low nibble 7, and ENCODE's low nibble under a set reserved bit. -/
theorem test_decode_reserved : decodeWord (commandWord 0 0b0111) = .reserved 0x00000007
    ∧ decodeWord (commandWord 1 0b0001) = .reserved 0x00000011
    ∧ decodeTableWord 32 0x80000001 = some (.reserved 0x80000001) := by decide

theorem test_decode_bytes : decode [0x00, 0x00, 0x00, 0x03] = .ok .decode ∧ decode [0x00, 0x00, 0x03] = .error .tooFewBytes
    ∧ decode [0x00, 0x00, 0x00, 0x03, 0x00] = .error .tooManyBytes := by
  refine ⟨?_, ?_, ?_⟩ <;> rfl

theorem test_withFetchWord_runs_the_word : step (State.reset.withFetchWord 32 7)
    = .next { State.reset with err := 6, done := true } := rfl

/-! ### One command each, on the frames of 95_test_vectors.md -/

/-- A1, A2 and BC of 95_test_vectors.md. -/
def a1 : StationId := ⟨0x02, 0x00, 0x00, 0x00, 0x00, 0x01⟩

/-- A2 of 95_test_vectors.md. -/
def a2 : StationId := ⟨0x02, 0x00, 0x00, 0x00, 0x00, 0x02⟩

/-- "Hello". -/
def hello : List Byte := [0x48, 0x65, 0x6C, 0x6C, 0x6F]

/-- F1's registers, idle. -/
def f1 : State :=
  { State.reset with
    fc := 0x0208, duration := 2, dest := a1, src := a2, bssid := a1, seqCtrl := 0x0010, plen := 5
    pay := Memory.store 256 [] 0 hello }

/-- F1's envelope as bytes, with a given trailer. -/
def f1Bytes (trailer : List Byte) : List Byte :=
  [0xC0, 0xDE, 0xFA, 0xCE, 0x02, 0x08, 0x00, 0x02]
    ++ [0x02, 0x00, 0x00, 0x00, 0x00, 0x01, 0x02, 0x00, 0x00, 0x00, 0x00, 0x02, 0x02, 0x00, 0x00, 0x00, 0x00, 0x01]
    ++ [0x00, 0x10, 0x00, 0x00, 0x00, 0x00, 0x00, 0x00, 0x00, 0x05] ++ hello ++ trailer ++ [0xFA, 0xCE, 0xC0, 0xDE]

/-- F1's envelope in ENV_BUF, with ENV_LEN = n. -/
def received (trailer : List Byte) (n : Half) : State :=
  { State.reset with env := Memory.store 300 [] 0 (f1Bytes trailer), envLen := n }

/-- F1's trailer. -/
def f1Trailer : List Byte := [0x51, 0x3F, 0xAD, 0xFA]

/-- An outcome is a next state with a property. -/
def nextIs (o : Host.Outcome State Fault Refusal) (p : State → Bool) : Bool :=
  match o with
  | .next t => p t
  | _ => false

/-- CT-1. -/
theorem test_nop : nextIs (exec .nop { State.reset with integrityOk := true, pend := some 0 })
    (fun t => t.statusWord = 0x0000000A) = true := by decide

/-- EN-1. -/
theorem test_encode : nextIs (exec .encode f1) (fun t => t.statusWord = 0x0000000A && decide (t.envLen = 49)
    && decide (t.fcs = 0x513FADFA) && decide (t.envRead 0 49 = f1Bytes f1Trailer)) = true := by decide +kernel

/-- EN-6. -/
theorem test_encode_too_large : nextIs (exec .encode { f1 with plen := 257, integrityOk := true })
    (fun t => t.statusWord = 0x00000302 && decide (t.envLen = 0) && decide (t.fcs = 0)) = true := by decide +kernel

/-- EK-1. -/
theorem test_encodeKeep : nextIs (exec .encodeKeep f1) (fun t => t.statusWord = 0x00000002
    && decide (t.chkResult = 0x513FADFA) && decide (t.envRead 0 49 = f1Bytes [0, 0, 0, 0])) = true := by decide +kernel

/-- DE-1. -/
theorem test_decode : nextIs (exec .decode (received f1Trailer 49)) (fun t => t.statusWord = 0x0000000A
    && decide (t.fc = 0x0208) && decide (t.src = a2) && decide (t.plen = 5) && decide (t.payRead 0 5 = hello)
    && decide (t.fcs = 0x513FADFA)) = true := by decide +kernel

/-- DE-10. -/
theorem test_decode_length_mismatch : nextIs (exec .decode (received f1Trailer 50))
    (fun t => t.statusWord = 0x00000402 && decide (t.fc = 0)) = true := by decide +kernel

/-- VF-2. -/
theorem test_verify : nextIs (exec .verify f1) (fun t => t.statusWord = 0x00000002
    && decide (t.chkResult = 0x513FADFA)) = true := by decide +kernel

/-- VF-6, under XOR8. -/
theorem test_verify_xor8 : nextIs (exec .verify { f1 with alg := true, fcs := 0x0000005F })
    (fun t => t.statusWord = 0x0000000A) = true := by decide +kernel

/-- CC-4: the payload alone. -/
theorem test_checksum : nextIs (exec .checksum { received f1Trailer 49 with skipStart := 36, skipEnd := 8 })
    (fun t => t.statusWord = 0x00000002 && decide (t.chkResult = 0x715CE7EC)) = true := by decide +kernel

/-- CC-10: the sum of the skips does not wrap. -/
theorem test_checksum_bad_range : nextIs (exec .checksum { received f1Trailer 49 with skipStart := 0xFFFF, skipEnd := 0xFFFF })
    (fun t => t.statusWord = 0x00000502 && decide (t.chkResult = 0)) = true := by decide +kernel

/-- CT-3. -/
theorem test_clear : nextIs (exec .clear { received f1Trailer 49 with alg := true, ie := true, haz := true, fcs := 1 })
    (fun t => t.statusWord = 0x00000006 && decide (t.env = []) && decide (t.fcs = 0) && decide (t.envLen = 0)
      && decide (t.configWord = 3) && decide (t.startMarker = 0xC0DEFACE)) = true := by decide +kernel

/-- CT-5. -/
theorem test_reserved : nextIs (exec (.reserved 7) { f1 with integrityOk := true })
    (fun t => t.statusWord = 0x0000060A && decide (t.fc = 0x0208)) = true := by decide

/-! ### Checksums and bit fields -/

/-- CK-7 and CK-9. -/
theorem test_oaat : oaat ("The quick brown fox jumps over the lazy dog".toList.map fun c => BitVec.ofNat 8 c.toNat) = 0x519E91F5
    ∧ oaat [0x00, 0x01] = 0x124EA49D := by decide +kernel

/-- CK-11. -/
theorem test_xor8 : xor8 [0xFF] = 0xFF ∧ xor8 [1, 2, 3, 4, 5, 6, 7, 8] = 0x08 := by decide

/-- FC-6, FC-11, FC-13 and FC-18. -/
theorem test_frameControl : fcGet 0x000C .type = 3 ∧ fcSet 0x0608 .moreFragments 0 = 0x0208
    ∧ fcSet 0xFFFF .subtype 0 = 0xFF0F ∧ fcPack 3 3 15 1 1 1 1 1 1 1 1 = 0xFFFF := by decide

/-- FC-20, FC-21 and FC-23. -/
theorem test_wire_and_sequence : fcWire 0x8001 = [0x80, 0x01] ∧ fcUnwire 0x06 0x08 = 0x0608
    ∧ sequenceNumber.get 0xFFF0 = 4095 ∧ fragmentNumber.get 0x0023 = 3 := by decide

/-! ### Host transactions -/

/-- `s` with one host move to make, at the host's turn. -/
def atHost (s : State) (m : HostMove) : State := { s with script := [m], schedule := [.host] }

/-- A state in which ENCODE waits for the engine. -/
def waiting : State := { f1 with pend := some 0x00000001 }

/-- RG-2. -/
theorem test_read_param : nextIs (step (atHost State.reset (.read 0x004))) (fun t => t.reads = [0x012C0100]) = true := by
  decide +kernel

/-- RG-6. -/
theorem test_write_dest1 : nextIs (step (atHost State.reset (.write 0x044 0xAABBCCDD)))
    (fun t => t.dest = ⟨0, 0, 0, 0, 0xAA, 0xBB⟩) = true := by decide +kernel

/-- RG-13 and RG-14: the last word of ENV_BUF, and the first beyond it. -/
theorem test_write_env : nextIs (step (atHost State.reset (.write 0x2128 0x11223344)))
      (fun t => t.envRead 296 4 = [0x11, 0x22, 0x33, 0x44]) = true
    ∧ nextIs (step (atHost State.reset (.write 0x212C 0x11223344))) (fun t => t.env = []) = true := by decide +kernel

/-- RG-17. -/
theorem test_write_status : nextIs (step (atHost { State.reset with done := true, haz := true, integrityOk := true }
    (.write 0x00C 0xFFFFFFFF))) (fun t => t.statusWord = 0x00000008) = true := by decide +kernel

/-- RG-19. -/
theorem test_no_transaction : step (atHost State.reset (.read 0x002)) = .refused (.notATransaction 0x002)
    ∧ step (atHost State.reset (.write 0x4000 0)) = .refused (.notATransaction 0x4000) := ⟨rfl, rfl⟩

/-- HZ-2: a command written while busy is refused. -/
theorem test_busy_write : nextIs (step (atHost waiting (.write 0x010 0))) (fun t => t.haz && decide (t.pend = some 1)) = true := by
  decide +kernel

/-- HZ-4. -/
theorem test_busy_status : nextIs (step (atHost waiting (.read 0x00C))) (fun t => t.reads = [0x00000001]) = true := by
  decide +kernel

/-- RS-2. -/
theorem test_reset_while_busy : nextIs (step (atHost { waiting with pend := some 6 } .reset))
    (fun t => decide (t.pend = none) && !t.done && decide (t.statusWord = 0) && decide (t.fc = 0)) = true := by
  simp [step, atHost, State.turn, hostTurn, State.takeTurn, nextIs, State.assertReset, State.resetWith, State.statusWord,
    State.busy]

/-! ### Witnesses: a concrete state and operands that meet the hypotheses of each obligation

`atHost` gives the host a move at its turn; `waiting` has a command pending. The two lemmas say so once. -/

theorem hostNext_atHost (s : State) (m : HostMove) : (atHost s m).HostNext m := ⟨rfl, rfl⟩

theorem busy_atHost (m : HostMove) : (atHost waiting m).busy = true ∧ (atHost State.reset m).busy = false := ⟨rfl, rfl⟩

theorem inv_waiting (m : HostMove) : (atHost waiting m).Inv where
  pending_clears := fun _ => ⟨rfl, rfl⟩
  err_le := by show (0 : BitVec 4).toNat ≤ 6; decide
  pay_wf := Memory.store_wf ⟨List.Pairwise.nil, by simp⟩ _ _ _
  pay_within := Memory.store_within (by simp [Memory.within]) _ _
  env_wf := ⟨List.Pairwise.nil, by simp [atHost, waiting, f1, State.reset, State.resetWith]⟩
  env_within := by simp [Memory.within, atHost, waiting, f1, State.reset, State.resetWith]

/-- CommandWordsDecodeAndEncodeAgree: the bounds of the reserved words, and byte lists of 3 and 5 bytes. -/
theorem witness_commandWords : (Instr.reserved 7).wellFormed = true ∧ (Instr.reserved 0xFFFFFFFF).wellFormed = true
    ∧ Instr.clear.wellFormed = true ∧ ([0, 0, 3] : List Byte).length ≠ 4 ∧ ([0, 0, 0, 3, 0] : List Byte).length ≠ 4 := by
  decide

/-- OpcodeMapGivesEveryWordOneRow, CommandsReportTheFirstErrorThatApplies. -/
theorem witness_reservedWords : 7 ≤ (0x00000007 : Word).toNat ∧ 7 ≤ (0xFFFFFFFF : Word).toNat := by decide

/-- ReservedWordCompletesWithBadCommand: by the reserved bits, and by the low nibble at both ends. -/
theorem witness_reservedFields : (0x00000011 : Word).toNat / 16 ≠ 0 ∧ 7 ≤ (0x00000007 : Word).toNat % 16
    ∧ 7 ≤ (0x0000000F : Word).toNat % 16 := by decide

/-- StepRunsThePendingCommand: each clause. -/
theorem witness_stepRuns : ({ waiting with schedule := [.engine] } : State).turn = .engine
    ∧ ({ waiting with schedule := [.engine] } : State).pend = some 1 ∧ waiting.schedule = [] ∧ waiting.pend = some 1
    ∧ ({ State.reset with schedule := [.engine] } : State).turn = .engine ∧ State.reset.pend = none := by decide

/-- EveryCommandEndsInComplete: a command that fails. -/
theorem witness_commandFails : ∃ t, exec (.reserved 7) State.reset = .next t ∧ t.err ≠ 0 := ⟨_, rfl, by decide⟩

/-- NopCompletesWithoutEffect, CmdWriteIssuesTheWord, InterruptIsEnableAndDone: an idle block and a CMD write. -/
theorem witness_cmdWrite : (atHost State.reset (.write 0x010 0)).HostNext (.write 0x010 0)
    ∧ (atHost State.reset (.write 0x010 0)).busy = false ∧ (atHost State.reset (.write 0x010 0)).pend = none
    ∧ ∃ t, exec .nop State.reset = .next t := ⟨⟨rfl, rfl⟩, rfl, rfl, _, rfl⟩

/-- ClearZeroesTheFrameStateAndBuffers: its last clause, under OAAT. -/
theorem witness_clear : (∃ t, exec .clear f1 = .next t) ∧ f1.alg = false := ⟨⟨_, rfl⟩, rfl⟩

/-- EncodeStampsTheFrame, EncodeKeepEmitsFcsAsTheTrailer, VerifyComparesTheStoredCode: PLEN at MAX_PAYLOAD and
one above; the first also for EnvelopeFieldsStandAtTheirOffsets, EncodeThenDecodeGivesTheFrameBack and
EveryWrongTrailerIsReported. -/
theorem witness_plen : ({ f1 with plen := 256 } : State).plen.toNat ≤ ({ f1 with plen := 256 } : State).cfg.maxPayload
    ∧ ({ f1 with plen := 257 } : State).plen.toNat > ({ f1 with plen := 257 } : State).cfg.maxPayload
    ∧ f1.busy = false ∧ f1.plen.toNat ≤ f1.cfg.maxPayload := by decide

/-- EncodeKeepEmitsFcsAsTheTrailer: the trailer that is the right code. -/
theorem witness_keepRight : ({ f1 with fcs := 0x513FADFA } : State).fcs
    = ({ f1 with fcs := 0x513FADFA } : State).ck ({ f1 with fcs := 0x513FADFA } : State).body := by decide +kernel

/-- DecodeChecksThenWritesTheFrame: every error, in the order of the checks (DE-4, DE-6, DE-7, DE-8, DE-10, DE-12), and none. -/
theorem witness_decodeErrors : (received f1Trailer 43).decodeErrOwed = 1
    ∧ ({ received f1Trailer 49 with startMarker := 0xC0DEFACF } : State).decodeErrOwed = 2
    ∧ ({ received f1Trailer 49 with env := Memory.store 300 (received f1Trailer 49).env 34 [1, 1] } : State).decodeErrOwed = 3
    ∧ (received f1Trailer 48).decodeErrOwed = 1 ∧ (received f1Trailer 50).decodeErrOwed = 4
    ∧ ({ received f1Trailer 49 with endMarker := 0xFACEC0DF } : State).decodeErrOwed = 2
    ∧ (received f1Trailer 49).decodeErrOwed = 0 := by decide +kernel

/-- DecodeThenEncodeRestoresTheEnvelope, VerifyComparesTheStoredCode: a DECODE that completes, with the right
trailer and with a wrong one. -/
theorem witness_decodes : nextIs (exec .decode (received f1Trailer 49)) (fun t => t.err = 0 && t.integrityOk) = true
    ∧ nextIs (exec .decode (received [0, 0, 0, 0] 49)) (fun t => t.err = 0 && !t.integrityOk) = true := by decide +kernel

/-- VerifyComparesTheStoredCode: an ENCODE that completes. -/
theorem witness_encodes : nextIs (exec .encode f1) (fun t => t.err = 0) = true := by decide +kernel

/-- CommandsReadOnlyTheirOperands: two states that agree on the operands and differ elsewhere. -/
theorem witness_agree : f1.AgreeOnFrame { f1 with haz := true, chkResult := 1, env := [(0, 1)] }
    ∧ f1.AgreeOnMarkers { f1 with haz := true, chkResult := 1, env := [(0, 1)] }
    ∧ (received f1Trailer 49).AgreeOnEnvelope { received f1Trailer 49 with haz := true, fcs := 1, plen := 9 } :=
  ⟨⟨rfl, rfl, rfl, rfl, rfl, rfl, rfl, rfl, rfl, rfl, fun _ _ => rfl⟩, ⟨rfl, rfl⟩, ⟨rfl, rfl, rfl, fun _ _ => rfl⟩⟩

/-- ChecksumCoversTheRangeBetweenTheSkips: n at and above MAX_ENVELOPE, s + e at and above n, an empty range
(CC-5, CC-6, CC-8, CC-9). -/
theorem witness_ranges : ({ State.reset with envLen := 301 } : State).envLen.toNat > State.reset.cfg.maxPayload + 44
    ∧ ({ State.reset with envLen := 300 } : State).envLen.toNat ≤ State.reset.cfg.maxPayload + 44
    ∧ (40 : Half).toNat + (9 : Half).toNat = (49 : Half).toNat ∧ (40 : Half).toNat + (10 : Half).toNat > (49 : Half).toNat := by
  decide

/-- ChecksumCoversTheRangeBetweenTheSkips: CONFIG.ALG at each of its values. -/
theorem witness_alg : f1.alg = false ∧ ({ f1 with alg := true } : State).alg = true := by decide

/-- ChecksumCoversTheRangeBetweenTheSkips: skips 4 and 8 and an ENCODE that completes. -/
theorem witness_skips : nextIs (exec .encode { f1 with skipStart := 4, skipEnd := 8 })
    (fun t => t.err = 0 && decide (t.skipStart = 4) && decide (t.skipEnd = 8)) = true := by decide +kernel

/-- Xor8FoldsBytesInAnyOrder, BigEndianEncodingIsInvertible. -/
theorem witness_bytes : ([1, 2] : List Byte).Perm [2, 1] ∧ 0xFFFF < 2 ^ (8 * 2) ∧ 0 < 2 ^ (8 * 0) := by decide

/-- FcGetReadsTheTabledField, FcSetWritesOneFieldOnly: the table's rows, and two fields apart. -/
theorem witness_fields : (FcField.protocolVersion, 0, 2, (0x0003 : Half)) ∈ fcTable
    ∧ (FcField.order, 15, 1, (0x8000 : Half)) ∈ fcTable ∧ FcField.order ≠ FcField.protocolVersion := by decide

/-- ResetGivesTheStatedValues, ResetDrawsFreshBufferContents, InterruptIsEnableAndDone: reset of an idle block
and of a busy one, and the first and last byte of each buffer. -/
theorem witness_reset : (atHost State.reset .reset).HostNext .reset ∧ (atHost waiting .reset).HostNext .reset
    ∧ 0 < waiting.cfg.maxPayload ∧ 255 < waiting.cfg.maxPayload ∧ 299 < waiting.cfg.maxPayload + 44 :=
  ⟨⟨rfl, rfl⟩, ⟨rfl, rfl⟩, by decide, by decide, by decide⟩

/-- The offsets of every clause of the read and write statements: first and last of the registers, of the two
buffers (k = 0 and k = 1023), and of the reserved ranges. -/
def clauseOffsets : List Nat := [0x000, 0x00C, 0x05C, 0x1000 + 4 * 0, 0x1000 + 4 * 1023, 0x2000 + 4 * 0, 0x2000 + 4 * 1023]
  ++ [0x060, 0x0FFC, 0x3000, 0x3FFC]

/-- IdleReadReturnsTheMappedWord, IdleWriteStoresTheImplementedBits: an idle block at each clause's bounds. -/
theorem witness_idleMoves (v : Word) : ∀ off ∈ clauseOffsets, off % 4 = 0
    ∧ (atHost State.reset (.read off)).HostNext (.read off) ∧ (atHost State.reset (.read off)).busy = false
    ∧ (atHost State.reset (.write off v)).HostNext (.write off v) ∧ (atHost State.reset (.write off v)).busy = false :=
  fun off h => ⟨(show ∀ off ∈ clauseOffsets, off % 4 = 0 by decide) off h, hostNext_atHost _ _, rfl, hostNext_atHost _ _, rfl⟩

/-- WriteThenReadGivesTheWordBack: the first and the last whole word of each buffer. -/
theorem witness_wholeWords : 4 * 0 + 4 ≤ State.reset.cfg.maxPayload ∧ 4 * 63 + 4 ≤ State.reset.cfg.maxPayload
    ∧ 4 * 74 + 4 ≤ State.reset.cfg.maxPayload + 44 := by decide

/-- WritesOtherThanCmdAreIdempotent, BusyWriteIsRefusedAndSetsHaz: offsets at the window's ends and beside CMD. -/
theorem witness_offsets : ∀ off ∈ [0x000, 0x00C, 0x014, 0x3FFC], off % 4 = 0 ∧ off ≤ 0x3FFC ∧ off ≠ 0x010 := by decide

/-- StatusWriteClearsDoneAndHazOnly, InterruptIsEnableAndDone: a STATUS write, idle and busy, that clears DONE. -/
theorem witness_statusWrite : (atHost State.reset (.write 0x00C 2)).HostNext (.write 0x00C 2)
    ∧ (atHost waiting (.write 0x00C 2)).HostNext (.write 0x00C 2) ∧ (2 : Word).getLsbD 1 = true :=
  ⟨⟨rfl, rfl⟩, ⟨rfl, rfl⟩, by decide⟩

/-- InterruptIsEnableAndDone: a write that clears IE. -/
theorem witness_configWrite : (atHost State.reset (.write 0x008 1)).HostNext (.write 0x008 1)
    ∧ (atHost State.reset (.write 0x008 1)).busy = false ∧ (1 : Word).getLsbD 1 = false := ⟨⟨rfl, rfl⟩, rfl, by decide⟩

/-- InterruptIsEnableAndDone: a step that raises DONE. -/
theorem witness_doneRises : waiting.done = false ∧ nextIs (step waiting) (fun t => t.done) = true := by decide +kernel

/-- BusyWriteIsRefusedAndSetsHaz: a busy block and a write at each clause's bounds; a step with HAZ set. -/
theorem witness_busyWrites : (∀ off ∈ clauseOffsets ++ [0x010], (atHost waiting (.write off 0)).busy = true
      ∧ (atHost waiting (.write off 0)).HostNext (.write off 0) ∧ off % 4 = 0 ∧ off ≤ 0x3FFC)
    ∧ (atHost { waiting with haz := true } .wait).haz = true ∧ ∃ t, step (atHost { waiting with haz := true } .wait) = .next t :=
  ⟨fun off h => ⟨rfl, hostNext_atHost _ _,
    (show ∀ off ∈ clauseOffsets ++ [0x010], off % 4 = 0 ∧ off ≤ 0x3FFC by decide) off h⟩, rfl, _, rfl⟩

/-- BusyReadGivesOnlyTheStableOffsets: a busy block that meets the invariant, at each clause's bounds. -/
theorem witness_busyReads : ∀ off ∈ clauseOffsets ++ [0x010, 0x018, 0x01C, 0x1FFC, 0x2FFC],
    (atHost waiting (.read off)).Inv ∧ (atHost waiting (.read off)).busy = true
      ∧ (atHost waiting (.read off)).HostNext (.read off) := fun _ _ => ⟨inv_waiting _, rfl, hostNext_atHost _ _⟩

/-- OnlyNonTransactionsAreRefused: a misaligned and an outside offset, read and written; a refused step. -/
theorem witness_nonTransactions : 0x002 % 4 ≠ 0 ∧ 0x3FFC < 0x4000
    ∧ (atHost State.reset (.read 0x002)).HostNext (.read 0x002)
    ∧ (atHost State.reset (.write 0x4000 0)).HostNext (.write 0x4000 0)
    ∧ step (atHost State.reset (.read 0x4000)) = .refused (.notATransaction 0x4000) :=
  ⟨by decide, by decide, ⟨rfl, rfl⟩, ⟨rfl, rfl⟩, rfl⟩

/-- WaitPollsStatusUntilIdle: idle and busy. -/
theorem witness_wait : (atHost State.reset .wait).HostNext .wait ∧ (atHost waiting .wait).HostNext .wait
    ∧ (atHost waiting .wait).busy = true := ⟨⟨rfl, rfl⟩, ⟨rfl, rfl⟩, rfl⟩

/-- EveryStepKeepsTheInvariant: a busy state that meets it and steps. -/
theorem witness_inv : (atHost waiting (.write 0x00C 6)).Inv ∧ ∃ t, step (atHost waiting (.write 0x00C 6)) = .next t :=
  ⟨inv_waiting _, _, rfl⟩

/-- HostCannotDisturbARunningCommand: two turns of the host, with a refused write and a free read, before the engine's. -/
theorem witness_hostTurns : ∃ s : State, s.pend = some 1 ∧ (∀ m ∈ s.script, m.transaction = true) ∧ s.script.length = 2
    ∧ s.schedule = List.replicate 2 .host ++ .engine :: [.host] :=
  ⟨{ waiting with script := [.write 0x020 0x1234, .read 0x030], schedule := [.host, .host, .engine, .host] }, rfl, by decide,
    rfl, rfl⟩

/-- OnlyTheEngineOrResetEndsACommand: each of its three cases. -/
theorem witness_commandEnds : waiting.pend = some 1 ∧ nextIs (step waiting) (fun t => t.pend = none) = true
    ∧ (∃ t, step (atHost waiting .reset) = .next t ∧ t.pend = none)
    ∧ nextIs (step (atHost waiting .wait)) (fun t => t.pend = some 1) = true :=
  ⟨rfl, by decide +kernel, ⟨_, rfl, rfl⟩, by decide +kernel⟩

/-- StatusFlagsHaveOnlyTheirWriters, OnlyTheHostWritesConfigAndMarkers: steps that are no reset and change BUSY,
DONE, HAZ, INTEGRITY_OK, CONFIG and a marker. -/
theorem witness_flagsChange : ¬(atHost State.reset (.write 0x008 3)).HostNext .reset
    ∧ nextIs (step (atHost State.reset (.write 0x010 1))) (fun t => t.busy) = true
    ∧ nextIs (step waiting) (fun t => t.done && t.integrityOk) = true
    ∧ nextIs (step (atHost waiting (.write 0x020 0))) (fun t => t.haz) = true
    ∧ nextIs (step (atHost State.reset (.write 0x008 3))) (fun t => t.alg && t.ie) = true
    ∧ nextIs (step (atHost State.reset (.write 0x014 1))) (fun t => t.startMarker = 1) = true := by
  refine ⟨by simp [State.HostNext, atHost], ?_, ?_, ?_, ?_, ?_⟩ <;> decide +kernel

/-- WriteAndEngineStepMayComeInEitherOrder: the window's ends, FC and CMD, and its clause on ENCODE. -/
theorem witness_eitherOrder : f1.pend = none ∧ f1.plen.toNat ≤ f1.cfg.maxPayload
    ∧ ∀ off ∈ [0x000, 0x010, 0x020, 0x3FFC], off % 4 = 0 ∧ off ≤ 0x3FFC ∧ off ≠ 0x00C := by decide

/-- DutifulHostNeverSetsHaz: every kind of move the duty allows. -/
theorem witness_dutiful : ∀ m ∈ [HostMove.read 0x00C, .write 0x00C 6, .wait, .reset],
    (atHost waiting m).busy = true ∧ (atHost waiting m).HostNext m ∧ m.dutiful = true :=
  fun m h => ⟨rfl, hostNext_atHost _ _,
    (show ∀ m ∈ [HostMove.read 0x00C, .write 0x00C 6, .wait, .reset], m.dutiful = true by decide) m h⟩

end Sys2Proof.Tests
end

section
/-! PROOFS. The notation of 00_scope.md: big-endian integers are inverse to byte sequences (R10), and the poll of
`WAIT` (R12). -/

namespace Sys2Proof.Machine

/-- Byte i of BE_n(v) is the digit of weight 2^(8(n−1−i)), whatever the size of v. -/
theorem getD_be {n i : Nat} (v : Nat) (h : i < n) :
    (be n v).getD i 0 = BitVec.ofNat 8 (v / 2 ^ (8 * (n - 1 - i))) := by
  induction n generalizing i with
  | zero => omega
  | succ n ih =>
    cases i with
    | zero => simp [be]
    | succ i =>
      have hdigit : n + 1 - 1 - (i + 1) = n - 1 - i := by omega
      rw [hdigit, be, List.getD_cons_succ, ih (by omega)]

/-- BE_n keeps the low n bytes of its argument. -/
theorem unBE_be (n v : Nat) : unBE (be n v) = v % 2 ^ (8 * n) := by
  induction n with
  | zero => simp [be, unBE, Nat.mod_one]
  | succ n ih =>
    have hpow : 2 ^ (8 * (n + 1)) = 2 ^ (8 * n) * 2 ^ 8 := by rw [← pow_add]; rfl
    rw [be, unBE, length_be, ih, BitVec.toNat_ofNat, hpow, Nat.mod_mul]
    ring

theorem unBE_lt (bs : List Byte) : unBE bs < 2 ^ (8 * bs.length) := by
  induction bs with
  | nil => simp [unBE]
  | cons b bs ih =>
    calc unBE (b :: bs) < b.toNat * 2 ^ (8 * bs.length) + 2 ^ (8 * bs.length) := Nat.add_lt_add_left ih _
      _ = (b.toNat + 1) * 2 ^ (8 * bs.length) := by ring
      _ ≤ 2 ^ 8 * 2 ^ (8 * bs.length) := Nat.mul_le_mul_right _ b.isLt
      _ = 2 ^ (8 * (b :: bs).length) := by rw [← pow_add, List.length_cons]; ring_nf

/-- The first byte is the quotient by the weight of the rest, and the rest is the remainder. -/
theorem unBE_cons_div_mod (b : Byte) (bs : List Byte) : unBE (b :: bs) / 2 ^ (8 * bs.length) = b.toNat
    ∧ unBE (b :: bs) % 2 ^ (8 * bs.length) = unBE bs :=
  (Nat.div_mod_unique (Nat.two_pow_pos _)).mpr ⟨by rw [unBE]; ring, unBE_lt bs⟩

/-- unBE tells byte sequences of one length apart. -/
theorem eq_of_unBE_eq {bs cs : List Byte} (hlen : bs.length = cs.length) (h : unBE bs = unBE cs) : bs = cs := by
  induction bs generalizing cs with
  | nil => exact (List.eq_nil_of_length_eq_zero hlen.symm).symm
  | cons b bs ih =>
    cases cs with
    | nil => simp at hlen
    | cons c cs =>
      have hlen' : bs.length = cs.length := Nat.succ.inj hlen
      obtain ⟨hb, hbs⟩ := unBE_cons_div_mod b bs
      obtain ⟨hc, hcs⟩ := unBE_cons_div_mod c cs
      rw [h, hlen'] at hb hbs
      have hhead : b = c := BitVec.eq_of_toNat_eq (hb.symm.trans hc)
      have htail : bs = cs := ih hlen' (hbs.symm.trans hcs)
      rw [hhead, htail]

theorem be_unBE (bs : List Byte) : be bs.length (unBE bs) = bs := by
  refine eq_of_unBE_eq (length_be _ _) ?_
  rw [unBE_be, Nat.mod_eq_of_lt (unBE_lt bs)]

/-- A script whose next move is m is m and the rest. -/
theorem State.HostNext.script_eq {s : State} {m : HostMove} (h : s.HostNext m) : m :: s.script.tail = s.script :=
  List.cons_head?_tail h.2

/-- Settles O21: both composites of BE and unBE are the identity, by induction on the number of bytes. -/
theorem bigEndianEncodingIsInvertible : Obligations.BigEndianEncodingIsInvertible := by
  refine ⟨fun n v hv => ⟨length_be n v, ?_, fun i hi => getD_be v hi⟩, fun bs => ⟨unBE_lt bs, be_unBE bs⟩⟩
  rw [unBE_be, Nat.mod_eq_of_lt hv]

/-- Settles O38: a poll leaves the script's head in place exactly while BUSY = 1. -/
theorem waitPollsStatusUntilIdle : Obligations.WaitPollsStatusUntilIdle := by
  intro s h
  have hbusy : s.afterMove.busy = s.busy := rfl
  have hpoll : step s = .next (hostWait s.afterMove) := step_of_hostNext h
  rw [hpoll, hostWait, hbusy]
  cases s.busy with
  | false => rfl
  | true =>
    have hscript : HostMove.wait :: s.afterMove.script = s.script := h.script_eq
    simp only [if_true, hscript]
    rfl

end Sys2Proof.Machine
end

section
/-! PROOFS. What a command can do, as one inversion (10_state.md R37, R38): the states `exec` answers, one case for
each way a command's rule can end. -/

namespace Sys2Proof.Machine

/-- `Executed s i t`: command `i`, run in state `s`, ends in state `t`. -/
inductive Executed (s : State) : Instr → State → Prop where
  | nop : Executed s .nop (s.complete .ok)
  | encode (h : s.Fits) : Executed s .encode
      ({ s.emit (s.ck s.body) with fcs := s.ck s.body, chkResult := s.ck s.body, integrityOk := true }.complete .ok)
  | encodeKeep (h : s.Fits) : Executed s .encodeKeep
      ({ s.emit s.fcs with chkResult := s.ck s.body, integrityOk := decide (s.ck s.body = s.fcs) }.complete .ok)
  | verify (h : s.Fits) : Executed s .verify
      ({ s with chkResult := s.ck s.body, integrityOk := decide (s.ck s.body = s.fcs) }.complete .ok)
  | oversize {i : Instr} (hi : i = .encode ∨ i = .encodeKeep ∨ i = .verify) (h : ¬s.Fits) :
      Executed s i (s.failWith .payloadTooLarge)
  | decode (h : s.decodeError = none) : Executed s .decode
      ({ s.loadFrame s.prefixLen with
          fcs := BitVec.ofNat 32 (s.memRead (36 + s.prefixLen) 4)
          chkResult := s.ck (s.envRead 4 (32 + s.prefixLen))
          integrityOk := decide (s.ck (s.envRead 4 (32 + s.prefixLen))
            = BitVec.ofNat 32 (s.memRead (36 + s.prefixLen) 4)) }.complete .ok)
  | badEnvelope {e : ErrorCode} (h : s.decodeError = some e) : Executed s .decode (s.failWith e)
  | checksum (h : s.goodRange = true) : Executed s .checksum
      ({ s with chkResult := s.ck (s.envRead s.skipStart.toNat
          (s.envLen.toNat - s.skipEnd.toNat - s.skipStart.toNat)) }.complete .ok)
  | badRange (h : s.goodRange = false) : Executed s .checksum (s.complete .badRange)
  | clear : Executed s .clear
      ({ s with
          fc := 0, duration := 0, seqCtrl := 0, plen := 0, envLen := 0, fcs := 0, chkResult := 0
          skipStart := 0, skipEnd := 0, dest := .zero, src := .zero, bssid := .zero, addr4 := .zero
          pay := Memory.store s.cfg.maxPayload s.pay 0 (List.replicate s.cfg.maxPayload 0)
          env := Memory.store s.cfg.maxEnvelope s.env 0 (List.replicate s.cfg.maxEnvelope 0)
          integrityOk := false }.complete .ok)
  | reserved (w : Word) : Executed s (.reserved w) (s.complete .badCommand)

theorem Executed.exec_eq {s t : State} {i : Instr} (h : Executed s i t) : exec i s = .next t := by
  cases h with
  | nop | clear | reserved w => rfl
  | encode h => exact execEncode_of_fits h
  | encodeKeep h => exact execEncodeKeep_of_fits h
  | verify h => exact execVerify_of_fits h
  | oversize hi h =>
    rcases hi with rfl | rfl | rfl
    · exact execEncode_of_not_fits h
    · exact execEncodeKeep_of_not_fits h
    · exact execVerify_of_not_fits h
  | decode h => exact execDecode_of_none h
  | badEnvelope h => exact execDecode_of_error h
  | checksum h => exact execChecksum_of_good h
  | badRange h => exact execChecksum_of_bad h

/-- Every command ends in one of the ways `Executed` lists. -/
theorem exists_executed (i : Instr) (s : State) : ∃ t, Executed s i t := by
  cases i with
  | nop => exact ⟨_, .nop⟩
  | clear => exact ⟨_, .clear⟩
  | reserved w => exact ⟨_, .reserved w⟩
  | encode =>
    by_cases h : s.Fits
    · exact ⟨_, .encode h⟩
    · exact ⟨_, .oversize (by simp) h⟩
  | encodeKeep =>
    by_cases h : s.Fits
    · exact ⟨_, .encodeKeep h⟩
    · exact ⟨_, .oversize (by simp) h⟩
  | verify =>
    by_cases h : s.Fits
    · exact ⟨_, .verify h⟩
    · exact ⟨_, .oversize (by simp) h⟩
  | decode =>
    cases h : s.decodeError with
    | none => exact ⟨_, .decode h⟩
    | some e => exact ⟨_, .badEnvelope h⟩
  | checksum =>
    cases h : s.goodRange with
    | true => exact ⟨_, .checksum h⟩
    | false => exact ⟨_, .badRange h⟩

/-- `Executed` is `exec`. -/
theorem executed_iff {s t : State} {i : Instr} : Executed s i t ↔ exec i s = .next t := by
  refine ⟨Executed.exec_eq, fun ht => ?_⟩
  obtain ⟨u, hu⟩ := exists_executed i s
  obtain rfl : u = t := Host.Outcome.next.inj (hu.exec_eq.symm.trans ht)
  exact hu

/-- Every command leaves an error code of 60_exceptions.md R98 in ERR. -/
theorem Executed.err_eq {s t : State} {i : Instr} (h : Executed s i t) : ∃ e : ErrorCode, t.err = e.code := by
  cases h <;> exact ⟨_, State.complete_err _ _⟩

/-- The commands that write INTEGRITY_OK (10_state.md R39). -/
theorem Executed.integrityOk_eq {s t : State} {i : Instr} (h : Executed s i t)
    (hi : i ∉ [Instr.encode, Instr.encodeKeep, Instr.decode, Instr.verify, Instr.clear]) :
    t.integrityOk = s.integrityOk := by
  cases h with
  | nop | checksum h | badRange h | reserved w => rfl
  | oversize hi' h => rcases hi' with rfl | rfl | rfl <;> simp at hi
  | encode h | encodeKeep h | verify h | decode h | badEnvelope h | clear => simp at hi

end Sys2Proof.Machine
end

section
/-! PROOFS. What a write transaction reaches (20_memory.md R43): the offsets of STATUS and CMD, and the parts of the
state that a write to any other target keeps. -/

namespace Sys2Proof.Machine

theorem Target.ofOffset_ne_status {off : Nat} (h : off ≠ 0x00C) : Target.ofOffset off ≠ .reg .status :=
  fun hT => h (Reg.map_status (Target.mem_map_of_ofOffset hT))

theorem Target.eq_of_ofOffset_cmd {off : Nat} (h : Target.ofOffset off = .reg .cmd) : off = 0x010 :=
  Reg.map_cmd (Target.mem_map_of_ofOffset h)

/-- Only a write to CMD or STATUS reaches PEND, DONE or ERR (10_state.md R20, R36). -/
theorem State.writeTarget_flags (s : State) (v : Word) {T : Target} (hc : T ≠ .reg .cmd) (hs : T ≠ .reg .status) :
    (s.writeTarget v T).pend = s.pend ∧ (s.writeTarget v T).done = s.done ∧ (s.writeTarget v T).err = s.err := by
  cases T with
  | reg r =>
    cases r with
    | cmd => exact absurd rfl hc
    | status => exact absurd rfl hs
    | _ => exact ⟨rfl, rfl, rfl⟩
  | _ => exact ⟨rfl, rfl, rfl⟩

/-- Of the targets only STATUS has a W1C bit for HAZ (10_state.md R20). -/
theorem State.writeTarget_haz (s : State) (v : Word) {T : Target} (hs : T ≠ .reg .status) :
    (s.writeTarget v T).haz = s.haz := by
  cases T with
  | reg r =>
    cases r with
    | status => exact absurd rfl hs
    | _ => rfl
  | _ => rfl

/-- No write reaches INTEGRITY_OK, the configuration or the host's side. -/
theorem State.writeTarget_frame (s : State) (v : Word) (T : Target) :
    (s.writeTarget v T).integrityOk = s.integrityOk ∧ (s.writeTarget v T).cfg = s.cfg
      ∧ (s.writeTarget v T).script = s.script ∧ (s.writeTarget v T).schedule = s.schedule
      ∧ (s.writeTarget v T).reads = s.reads := by
  cases T with
  | reg r => cases r <;> exact ⟨rfl, rfl, rfl, rfl, rfl⟩
  | _ => exact ⟨rfl, rfl, rfl, rfl, rfl⟩

end Sys2Proof.Machine
end

section
/-! PROOFS. The machine's invariant (10_state.md R33 to R36, R40): what each command, each host move and reset does to
the two buffers, PEND, DONE and ERR. -/

namespace Sys2Proof.Machine

/-! ### The buffers -/

/-- A buffer in canonical form that lists no byte at or above its capacity (10_state.md R33, R34). -/
def Memory.Canonical (cap : Nat) (m : Memory) : Prop := Memory.wf m ∧ Memory.within cap m

theorem Memory.Canonical.store {cap : Nat} {m : Memory} (h : Memory.Canonical cap m) (a : Nat) (bs : List Byte) :
    Memory.Canonical cap (Memory.store cap m a bs) :=
  ⟨Memory.store_wf h.1 cap a bs, Memory.store_within h.2 a bs⟩

theorem Memory.canonical_ofFn (cap : Nat) (f : Nat → Byte) : Memory.Canonical cap (Memory.ofFn cap f) :=
  ⟨Memory.ofFn_wf cap f, Memory.ofFn_within cap f⟩

/-- The part of `State.Inv` that speaks of the two buffers. -/
def State.BuffersCanonical (s : State) : Prop :=
  Memory.Canonical s.cfg.maxPayload s.pay ∧ Memory.Canonical s.cfg.maxEnvelope s.env

theorem State.Inv.buffers {s : State} (h : s.Inv) : s.BuffersCanonical :=
  ⟨⟨h.pay_wf, h.pay_within⟩, ⟨h.env_wf, h.env_within⟩⟩

theorem State.BuffersCanonical.payWrite {s : State} (h : s.BuffersCanonical) (i : Nat) (bs : List Byte) :
    (s.payWrite i bs).BuffersCanonical :=
  ⟨h.1.store i bs, h.2⟩

theorem State.BuffersCanonical.envWrite {s : State} (h : s.BuffersCanonical) (a : Nat) (bs : List Byte) :
    (s.envWrite a bs).BuffersCanonical :=
  ⟨h.1, h.2.store a bs⟩

/-- A command stores to a buffer or leaves it alone. -/
theorem Executed.buffersCanonical {s t : State} {i : Instr} (h : Executed s i t) (hs : s.BuffersCanonical) :
    t.BuffersCanonical := by
  cases h with
  | encode | encodeKeep => exact hs.envWrite 0 _
  | decode => exact hs.payWrite 0 _
  | clear => exact ⟨hs.1.store 0 _, hs.2.store 0 _⟩
  | nop | verify | oversize | badEnvelope | checksum | badRange | reserved => exact hs

/-- A host write stores to a buffer or leaves it alone. -/
theorem State.BuffersCanonical.writeTarget {s : State} (h : s.BuffersCanonical) (v : Word) (T : Target) :
    (s.writeTarget v T).BuffersCanonical := by
  cases T with
  | reg r => cases r <;> exact h
  | payWord k => exact h.payWrite (4 * k) _
  | envWord k => exact h.envWrite (4 * k) _
  | reserved => exact h

/-! ### The invariant -/

theorem State.BuffersCanonical.inv {s : State} (h : s.BuffersCanonical)
    (hpend : s.busy = true → s.done = false ∧ s.err = 0) (herr : s.err.toNat ≤ 6) : s.Inv :=
  ⟨hpend, herr, h.1.1, h.1.2, h.2.1, h.2.2⟩

/-- A step that keeps PEND and ERR, does not set DONE and keeps the buffers canonical keeps the invariant. -/
theorem State.Inv.of_same_pend {s t : State} (h : s.Inv) (hpend : t.pend = s.pend) (herr : t.err = s.err)
    (hdone : s.done = false → t.done = false) (hbuf : t.BuffersCanonical) : t.Inv := by
  refine hbuf.inv (fun hb => ?_) (herr ▸ h.err_le)
  have hs : s.busy = true := by rwa [State.busy, ← hpend]
  obtain ⟨hd, he⟩ := h.pending_clears hs
  exact ⟨hdone hd, herr.trans he⟩

theorem State.BuffersCanonical.inv_of_idle {s : State} (h : s.BuffersCanonical) (hpend : s.pend = none)
    (herr : s.err.toNat ≤ 6) : s.Inv :=
  h.inv (fun hb => by simp [State.busy, hpend] at hb) herr

theorem ErrorCode.code_le (e : ErrorCode) : e.code.toNat ≤ 6 := by
  cases e <;> decide

theorem exec_inv {s t : State} {i : Instr} (h : s.Inv) (ht : exec i s = .next t) : t.Inv := by
  have hex : Executed s i t := executed_iff.2 ht
  obtain ⟨e, he⟩ := hex.err_eq
  obtain ⟨u, hu, hpend, -⟩ := exec_spec i s
  obtain rfl : u = t := Host.Outcome.next.inj (hu.symm.trans ht)
  exact (hex.buffersCanonical h.buffers).inv_of_idle hpend (he ▸ e.code_le)

theorem State.Inv.takeTurn {s : State} (h : s.Inv) : s.takeTurn.Inv :=
  h.of_same_pend rfl rfl id h.buffers

theorem State.Inv.afterMove {s : State} (h : s.Inv) : s.afterMove.Inv :=
  h.of_same_pend rfl rfl id h.buffers

theorem State.Inv.writeStatus {s : State} (h : s.Inv) (v : Word) : (s.writeStatus v).Inv :=
  h.of_same_pend rfl rfl (fun hd => by simp [hd]) h.buffers

/-- Issue clears DONE and ERR as it latches the word (10_state.md R36). -/
theorem State.Inv.issue {s : State} (h : s.Inv) (w : Word) : (s.issue w).Inv :=
  State.BuffersCanonical.inv (s := s.issue w) h.buffers (fun _ => ⟨rfl, rfl⟩) (by simp)

theorem State.Inv.writeTarget {s : State} (h : s.Inv) (v : Word) {T : Target} (hs : T ≠ .reg .status) :
    (s.writeTarget v T).Inv := by
  by_cases hc : T = .reg .cmd
  · subst hc
    exact h.issue v
  · obtain ⟨hpend, hdone, herr⟩ := s.writeTarget_flags v hc hs
    exact h.of_same_pend hpend herr hdone.trans (h.buffers.writeTarget v T)

/-- Reset needs no invariant before it: it fills both buffers anew (70_reset_and_hazards.md R113). -/
theorem State.inv_assertReset (s : State) : s.assertReset.Inv :=
  State.BuffersCanonical.inv_of_idle ⟨Memory.canonical_ofFn _ _, Memory.canonical_ofFn _ _⟩ rfl (by simp)

theorem hostMove_inv {s t : State} {m : HostMove} (h : s.Inv) (hm : s.HostNext m) (ht : step s = .next t) : t.Inv := by
  rcases hostMove_cases hm ht with ⟨off, x, d, -, hread⟩ | ⟨sc, -, hwait⟩ | ⟨-, hreset⟩ | ⟨v, -, hstatus⟩
    | ⟨off, v, -, -, -, hrefused⟩ | ⟨off, v, -, -, hoff, hwrite⟩
  · subst hread
    exact h.of_same_pend rfl rfl id h.buffers
  · subst hwait
    exact h.of_same_pend rfl rfl id h.buffers
  · exact hreset ▸ State.inv_assertReset _
  · exact hstatus ▸ h.afterMove.writeStatus v
  · subst hrefused
    exact h.of_same_pend rfl rfl id h.buffers
  · exact hwrite ▸ h.afterMove.writeTarget v (Target.ofOffset_ne_status hoff)

/-- Settles O40, by the three kinds of step: a command, an idle turn, a move of the host. -/
theorem everyStepKeepsTheInvariant : Obligations.EveryStepKeepsTheInvariant := by
  intro s t h ht
  rcases step_cases s with ⟨w, -, -, hexec⟩ | hidle | ⟨m, hm⟩
  · exact exec_inv h.takeTurn (hexec.symm.trans ht)
  · obtain rfl : s.takeTurn = t := Host.Outcome.next.inj (hidle.symm.trans ht)
    exact h.takeTurn
  · exact hostMove_inv h hm ht

end Sys2Proof.Machine
end

section
/-! PROOFS. The host while a command is pending (10_state.md R37, 70_reset_and_hazards.md R115): no transaction reaches
what the command reads, and no command reads the host's side. -/

namespace Sys2Proof.Machine

/-- `s` with what a host transaction reaches while BUSY = 1 taken from `t`: DONE, HAZ and the host's own fields. -/
def State.withHostSide (s t : State) : State :=
  { s with
    done := t.done, haz := t.haz, script := t.script, schedule := t.schedule, reads := t.reads, draws := t.draws }

/-- Two states that differ only in the host's side hold the same pending word. -/
theorem State.pend_of_eq_withHostSide {s t : State} (h : t = s.withHostSide t) : t.pend = s.pend :=
  (congrArg State.pend h).trans rfl

theorem State.eq_withHostSide_trans {s t u : State} (ht : t = s.withHostSide t) (hu : u = t.withHostSide u) :
    u = s.withHostSide u := by
  rw [ht] at hu
  exact hu

/-- No command reads the host's side, and of the host's side it writes DONE alone. -/
theorem Executed.withHostSide {s u : State} {i : Instr} (h : Executed s i u) (t : State) :
    Executed (s.withHostSide t) i
      { u with haz := t.haz, script := t.script, schedule := t.schedule, reads := t.reads, draws := t.draws } := by
  cases h with
  | nop => exact .nop
  | encode h => exact .encode h
  | encodeKeep h => exact .encodeKeep h
  | verify h => exact .verify h
  | oversize hi h => exact .oversize hi h
  | decode h => exact .decode h
  | badEnvelope h => exact .badEnvelope h
  | checksum h => exact .checksum h
  | badRange h => exact .badRange h
  | clear => exact .clear
  | reserved w => exact .reserved w

/-- A transaction or a poll while BUSY = 1 reaches the host's side alone. -/
theorem step_transaction_busy {s : State} {m : HostMove} (h : s.HostNext m) (hb : s.busy = true)
    (hm : m.transaction = true) : ∃ t, step s = .next t ∧ t = s.withHostSide t ∧ t.schedule = s.schedule.tail
      ∧ ∀ m ∈ t.script, m ∈ s.script := by
  cases m with
  | read off =>
    cases hs : (Target.ofOffset off).stableWhileBusy with
    | true => exact ⟨_, step_read h hm (.inr hs), rfl, rfl, fun m => List.mem_of_mem_tail⟩
    | false => exact ⟨_, step_read_busy h hm hb hs, rfl, rfl, fun m => List.mem_of_mem_tail⟩
  | write off v =>
    by_cases ho : off = 0x00C
    · subst ho
      exact ⟨_, step_write_status h, rfl, rfl, fun m => List.mem_of_mem_tail⟩
    · exact ⟨_, step_write_busy h hm hb (Target.ofOffset_ne_status ho), rfl, rfl, fun m => List.mem_of_mem_tail⟩
  | wait => exact ⟨_, waitPollsStatusUntilIdle s h, rfl, rfl, by simp [hb]⟩
  | reset => simp [HostMove.transaction] at hm

/-- A turn of the host, also one that finds its script empty (log 16), while BUSY = 1. -/
theorem step_host_busy {s : State} (hturn : s.turn = .host) (hb : s.busy = true)
    (hsc : ∀ m ∈ s.script, m.transaction = true) : ∃ t, step s = .next t ∧ t = s.withHostSide t
      ∧ t.schedule = s.schedule.tail ∧ ∀ m ∈ t.script, m.transaction = true := by
  rcases step_cases s with ⟨w, he, -⟩ | hidle | ⟨m, hm⟩
  · simp [hturn] at he
  · exact ⟨_, hidle, rfl, rfl, hsc⟩
  · obtain ⟨t, hstep, heq, hsched, hmem⟩ := step_transaction_busy hm hb (hsc m (List.mem_of_head? hm.2))
    exact ⟨t, hstep, heq, hsched, fun m hm => hsc m (hmem m hm)⟩

theorem State.turn_of_schedule {s : State} {a : Agent} {as : List Agent} (h : s.schedule = a :: as) : s.turn = a := by
  simp [State.turn, h]

/-- k turns of the host while BUSY = 1 reach the host's side alone. -/
theorem steps_host_busy {s : State} {k : Nat} {as : List Agent} (hb : s.busy = true)
    (hsc : ∀ m ∈ s.script, m.transaction = true) (hsched : s.schedule = List.replicate k .host ++ as) :
    ∃ t, Steps k s t ∧ t = s.withHostSide t ∧ t.schedule = as := by
  induction k generalizing s with
  | zero => exact ⟨s, .zero s, rfl, by simpa using hsched⟩
  | succ k ih =>
    rw [List.replicate_succ, List.cons_append] at hsched
    obtain ⟨t, hstep, ht, htsched, htsc⟩ := step_host_busy (State.turn_of_schedule hsched) hb hsc
    have htb : t.busy = true := by rwa [State.busy, State.pend_of_eq_withHostSide ht]
    obtain ⟨u, hsteps, hu, husched⟩ := ih htb htsc (by rw [htsched, hsched, List.tail_cons])
    exact ⟨u, .succ hstep hsteps, State.eq_withHostSide_trans ht hu, husched⟩

/-- Settles O42, by induction on the host's turns before the engine's. -/
theorem hostCannotDisturbARunningCommand : Obligations.HostCannotDisturbARunningCommand := by
  intro s w k rest hpend hsc hsched
  have hb : s.busy = true := by simp [State.busy, hpend]
  obtain ⟨t, hsteps, ht, htsched⟩ := steps_host_busy hb hsc hsched
  obtain ⟨u, hu⟩ := exists_executed (decodeWord w) s
  have htturn : t.takeTurn = s.withHostSide t.takeTurn := congrArg State.takeTurn ht
  have hstep : step t = exec (decodeWord w) t.takeTurn := by
    rw [step_of_engine (State.turn_of_schedule htsched)]
    exact engineTurn_of_pend ((State.pend_of_eq_withHostSide ht).trans hpend)
  have hrun : step t = .next { u with
      haz := t.haz, script := t.script, schedule := rest, reads := t.reads, draws := t.draws } := by
    rw [hstep, htturn, (hu.withHostSide _).exec_eq]
    simp [htsched]
  obtain ⟨u', hu', hidle, hdone, -⟩ := exec_spec (decodeWord w) s
  obtain rfl : u' = u := Host.Outcome.next.inj (hu'.symm.trans hu.exec_eq)
  refine ⟨t, u', _, hsteps, ?_, hu', hrun, rfl, by simp [State.busy, hidle], hdone⟩
  rw [← htsched]
  exact ht

end Sys2Proof.Machine
end

section
/-! PROOFS. Turns, issue and the STATUS flags (10_state.md R20, R36, R37, R39). -/

namespace Sys2Proof.Machine

/-! ### The engine's turn -/

theorem State.turn_of_exhausted {s : State} {w : Word} (hpend : s.pend = some w) (h : s.schedule = []) :
    s.turn = .engine := by
  simp [State.turn, h, State.busy, hpend]

theorem State.takeTurn_of_exhausted {s : State} (h : s.schedule = []) : s.takeTurn = s := by
  have htail : s.schedule.tail = s.schedule := by rw [h, List.tail_nil]
  rw [State.takeTurn, htail]

theorem step_of_pend {s : State} {w : Word} (hpend : s.pend = some w) (hturn : s.turn = .engine) :
    step s = exec (decodeWord w) s.takeTurn :=
  (step_of_engine hturn).trans (engineTurn_of_pend hpend)

/-- Settles O3, from the equations of the engine's turn. -/
theorem stepRunsThePendingCommand : Obligations.StepRunsThePendingCommand := by
  intro s
  refine ⟨fun w hpend hturn => step_of_pend hpend hturn, fun w hpend hsched => ?_, fun hpend hturn => ?_⟩
  · rw [step_of_pend hpend (State.turn_of_exhausted hpend hsched), State.takeTurn_of_exhausted hsched]
  · exact (step_of_engine hturn).trans (engineTurn_of_idle hpend)

/-! ### Writes to STATUS and CMD -/

/-- Settles O33: the write acts on STATUS alone, idle or busy. -/
theorem statusWriteClearsDoneAndHazOnly : Obligations.StatusWriteClearsDoneAndHazOnly :=
  fun _ _ h => step_write_status h

theorem State.busy_eq_false {s : State} (h : s.pend = none) : s.busy = false := by
  simp [State.busy, h]

/-- BUSY is bit 0 of STATUS (10_state.md R20). -/
theorem State.statusWord_getLsbD_zero (s : State) : s.statusWord.getLsbD 0 = s.busy := by
  refine BitVec.getLsbD_append.trans ?_
  simp

theorem step_write_cmd {s : State} {w : Word} (h : s.HostNext (.write 0x010 w)) (hb : s.busy = false) :
    step s = .next (s.afterMove.issue w) :=
  step_write_idle h (by decide) hb

/-- Settles O34: the write is `State.issue`. -/
theorem cmdWriteIssuesTheWord : Obligations.CmdWriteIssuesTheWord := by
  intro s w hpend h
  refine ⟨s.afterMove.issue w, step_write_cmd h (State.busy_eq_false hpend), rfl, rfl, ?_⟩
  rw [State.statusWord_getLsbD_zero]
  rfl

/-! ### The writers of the STATUS flags -/

/-- A flag that a W1C write changes had a 1 written to its bit. -/
theorem eq_true_of_cleared {flag bit : Bool} (h : (flag && !bit) ≠ flag) : bit = true := by
  cases bit with
  | true => rfl
  | false => simp at h

/-- Settles O44, by the kinds of step and, for the host's moves, by what each reaches. -/
theorem statusFlagsHaveOnlyTheirWriters : Obligations.StatusFlagsHaveOnlyTheirWriters := by
  intro s t ht hreset
  rcases step_cases s with ⟨w, hturn, hpend, hexec⟩ | hidle | ⟨m, hm⟩
  · have hex : Executed s.takeTurn (decodeWord w) t := executed_iff.2 (hexec.symm.trans ht)
    obtain ⟨u, hu, -, -, hhaz, -⟩ := exec_spec (decodeWord w) s.takeTurn
    obtain rfl : u = t := Host.Outcome.next.inj (hu.symm.trans hex.exec_eq)
    have hrun : s.busy = true ∧ s.turn = .engine := ⟨by simp [State.busy, hpend], hturn⟩
    refine ⟨fun _ => .inr hrun, fun _ => .inr (.inl hrun), fun h => absurd hhaz h, fun h => ⟨hturn, w, hpend, ?_⟩⟩
    by_contra hi
    exact h (hex.integrityOk_eq hi)
  · obtain rfl : s.takeTurn = t := Host.Outcome.next.inj (hidle.symm.trans ht)
    simp [State.busy]
  · rcases hostMove_cases hm ht with ⟨off, x, d, -, hread⟩ | ⟨sc, -, hwait⟩ | ⟨rfl, -⟩ | ⟨v, rfl, hstatus⟩
      | ⟨off, v, rfl, hb, hoff, hrefused⟩ | ⟨off, v, rfl, hb, hoff, hwrite⟩
    · simp [State.busy, hread]
    · simp [State.busy, hwait]
    · exact absurd hm hreset
    · subst hstatus
      exact ⟨by simp [State.busy], fun h => .inr (.inr ⟨v, hm, eq_true_of_cleared h⟩),
        fun h => .inr ⟨v, hm, eq_true_of_cleared h⟩, by simp⟩
    · subst hrefused
      exact ⟨by simp [State.busy], by simp, fun _ => .inl ⟨hb, off, v, hoff, hm⟩, by simp⟩
    · subst hwrite
      have hhaz := s.afterMove.writeTarget_haz v (Target.ofOffset_ne_status hoff)
      obtain ⟨hint, -⟩ := s.afterMove.writeTarget_frame v (Target.ofOffset off)
      by_cases hcmd : off = 0x010
      · subst hcmd
        exact ⟨fun _ => .inl ⟨hb, v, hm⟩, fun _ => .inl ⟨hb, v, hm⟩, fun h => absurd hhaz h, fun h => absurd hint h⟩
      · obtain ⟨hpend, hdone, herr⟩ := s.afterMove.writeTarget_flags v (mt Target.eq_of_ofOffset_cmd hcmd)
          (Target.ofOffset_ne_status hoff)
        simp [State.busy, hpend, hdone, herr, hhaz, hint]

end Sys2Proof.Machine
end

section
/-! PROOFS. A write then a read (10_state.md R16, 20_memory.md R42, R43, R45): what each register and each buffer word
gives back. -/

namespace Sys2Proof.Machine

/-! ### Words and their lanes -/

/-- A word is its four lanes (20_memory.md R45). -/
theorem append_lanes (v : Word) :
    (v.extractLsb' 24 8 ++ v.extractLsb' 16 8 ++ v.extractLsb' 8 8 ++ v.extractLsb' 0 8 : Word) = v := by
  refine BitVec.eq_of_toNat_eq ?_
  have hv := v.isLt
  rw [toNat_word]
  simp only [BitVec.extractLsb'_toNat, Nat.shiftRight_eq_div_pow]
  omega

/-- The upper two lanes are the word with bits 15:0 masked off. -/
theorem append_upperLanes (v : Word) :
    (v.extractLsb' 24 8 ++ v.extractLsb' 16 8 ++ 0#16 : Word) = v &&& 0xFFFF0000 := by
  have hmask : ∀ i (hi : i < 32), (0xFFFF0000 : Word)[i] = decide (16 ≤ i) := by decide
  refine BitVec.eq_of_getElem_eq fun i hi => ?_
  rw [BitVec.getElem_and, hmask i hi]
  grind

/-- A u16 register reads as its 16 bits. -/
theorem setWidth_setWidth_half (v : Word) : (v.setWidth 16 : Half).setWidth 32 = v &&& 0x0000FFFF := by
  refine BitVec.eq_of_toNat_eq ?_
  have hmod : (v &&& 0x0000FFFF).toNat = v.toNat % 2 ^ 16 := Nat.and_two_pow_sub_one_eq_mod v.toNat 16
  rw [hmod]
  simp
  omega

/-- CONFIG's two bits (10_state.md R19). -/
theorem append_configBits (v : Word) :
    (0#30 ++ BitVec.ofBool (v.getLsbD 1) ++ BitVec.ofBool (v.getLsbD 0) : Word) = v &&& 0x00000003 := by
  have hmask : ∀ i (hi : i < 32), (0x00000003 : Word)[i] = decide (i < 2) := by decide
  refine BitVec.eq_of_getElem_eq fun i hi => ?_
  rw [BitVec.getElem_and, hmask i hi]
  grind

/-! ### Read after write of one target -/

/-- The implemented bits of each RW register of the map (10_state.md R16); none for a register that is not RW. -/
def Reg.rwMask : Reg → Option Word
  | .id | .param | .status | .cmd | .chkResult => none
  | .config => some 0x00000003
  | .startMarker | .endMarker | .fcs | .dest0 | .src0 | .bssid0 | .addr40 => some 0xFFFFFFFF
  | .envLen | .fc | .duration | .seqCtrl | .plen | .skipStart | .skipEnd => some 0x0000FFFF
  | .dest1 | .src1 | .bssid1 | .addr41 => some 0xFFFF0000

/-- An RW register reads as the implemented bits of the word written. -/
theorem State.regWord_writeReg (s : State) (v : Word) {r : Reg} {m : Word} (h : r.rwMask = some m) :
    (s.writeReg v r).regWord r = v &&& m := by
  cases r with
  | id | param | status | cmd | chkResult => simp [Reg.rwMask] at h
  | config => cases h; exact append_configBits v
  | startMarker | endMarker | fcs => cases h; exact BitVec.and_allOnes.symm
  | dest0 | src0 | bssid0 | addr40 => cases h; exact (append_lanes v).trans BitVec.and_allOnes.symm
  | envLen | fc | duration | seqCtrl | plen | skipStart | skipEnd => cases h; exact setWidth_setWidth_half v
  | dest1 | src1 | bssid1 | addr41 => cases h; exact append_upperLanes v

/-- A buffer word below the capacity reads as the word stored (20_memory.md R45). -/
theorem laneWord_store {cap k : Nat} (h : 4 * k + 4 ≤ cap) (m : Memory) (v : Word) :
    laneWord (Memory.loadByte cap (Memory.store cap m (4 * k) (laneBytes v))) k = v := by
  have hlane (j : Nat) (hj : j < 4) :
      Memory.loadByte cap (Memory.store cap m (4 * k) (laneBytes v)) (4 * k + j) = (laneBytes v).getD j 0 := by
    rw [Memory.loadByte_store, length_laneBytes, if_pos (by omega), Nat.add_sub_cancel_left]
  rw [laneWord, hlane 1 (by omega), hlane 2 (by omega), hlane 3 (by omega)]
  have h0 := hlane 0 (by omega)
  rw [Nat.add_zero] at h0
  rw [h0]
  exact append_lanes v

theorem State.targetWord_writeTarget_payWord (s : State) (v : Word) {k : Nat} (h : 4 * k + 4 ≤ s.cfg.maxPayload) :
    (s.writeTarget v (.payWord k)).targetWord (.payWord k) = v :=
  laneWord_store h s.pay v

theorem State.targetWord_writeTarget_envWord (s : State) (v : Word) {k : Nat} (h : 4 * k + 4 ≤ s.cfg.maxEnvelope) :
    (s.writeTarget v (.envWord k)).targetWord (.envWord k) = v :=
  laneWord_store h s.env v

/-- The implemented bits of what an offset selects, where it is an RW register. -/
def Target.rwMask : Target → Option Word
  | .reg r => r.rwMask
  | _ => none

theorem Target.ne_of_rwMask {T : Target} {m : Word} (h : T.rwMask = some m) :
    T ≠ .reg .cmd ∧ T ≠ .reg .status := by
  constructor <;> rintro rfl <;> simp [Target.rwMask, Reg.rwMask] at h

theorem State.targetWord_writeTarget_rw (s : State) (v : Word) {T : Target} {m : Word} (h : T.rwMask = some m) :
    (s.writeTarget v T).targetWord T = v &&& m := by
  cases T with
  | reg r => exact s.regWord_writeReg v h
  | _ => simp [Target.rwMask] at h

/-! ### The two transactions -/

theorem State.turn_of_idle {s : State} (hpend : s.pend = none) (hsched : s.schedule = []) : s.turn = .host := by
  simp [State.turn, hsched, State.busy, hpend]

/-- A write to another target than CMD and STATUS, then a read, from a state made idle: the word read is what the target
reads as after the write. -/
theorem write_then_read (s : State) {off : Nat} (v : Word) {T : Target} (hl : legalOffset off = true)
    (hT : Target.ofOffset off = T) (hne : T ≠ .reg .cmd ∧ T ≠ .reg .status) :
    ∃ t u, step (s.withScript [.write off v, .read off]) = .next t ∧ step t = .next u
      ∧ u.reads = ((s.withScript [.read off]).writeTarget v T).targetWord T :: s.reads := by
  subst hT
  obtain ⟨hpend, -, -⟩ := (s.withScript [.read off]).writeTarget_flags v hne.1 hne.2
  obtain ⟨-, -, hscript, hsched, hreads⟩ := (s.withScript [.read off]).writeTarget_frame v (Target.ofOffset off)
  have hnext : ((s.withScript [.read off]).writeTarget v (Target.ofOffset off)).HostNext (.read off) :=
    ⟨State.turn_of_idle hpend hsched, congrArg List.head? hscript⟩
  refine ⟨_, _, step_write_idle ⟨rfl, rfl⟩ hl rfl, step_read hnext hl (.inl (State.busy_eq_false hpend)), ?_⟩
  exact congrArg _ hreads

/-- Settles O31: a write then a read at an RW register's offset or a buffer word's. -/
theorem writeThenReadGivesTheWordBack : Obligations.WriteThenReadGivesTheWordBack := by
  intro s v
  refine ⟨fun row hrow => ?_, fun k hk => ?_, fun k hk => ?_⟩
  · obtain ⟨hl, hm⟩ : legalOffset row.1 = true ∧ (Target.ofOffset row.1).rwMask = some row.2 := by
      revert row
      decide
    rw [← State.targetWord_writeTarget_rw (s.withScript [.read row.1]) v hm]
    exact write_then_read s v hl rfl (Target.ne_of_rwMask hm)
  · have hcap := s.cfg.maxPayload_le
    have hread := write_then_read s v (decide_eq_true (by omega)) (Target.ofOffset_payWord (k := k) (by omega)) (by simp)
    rwa [State.targetWord_writeTarget_payWord (s.withScript _) v hk] at hread
  · have hcap := s.cfg.maxPayload_le
    have hread := write_then_read s v (decide_eq_true (by omega)) (Target.ofOffset_envWord (k := k) (by omega)) (by simp)
    rwa [State.targetWord_writeTarget_envWord (s.withScript _) v hk] at hread

end Sys2Proof.Machine
end

section
/-! PROOFS. Host transactions (20_memory.md R41 to R43, R45, R49): which accesses are refused, what an idle read returns,
what an idle write stores, and what a second equal write leaves. -/

namespace Sys2Proof.Machine

/-! ### Refused steps -/

/-- The offsets that are no transaction: misaligned, or outside the window (20_memory.md R41). -/
theorem legalOffset_eq_false {off : Nat} : legalOffset off = false ↔ off % 4 ≠ 0 ∨ 0x3FFC < off := by
  rw [legalOffset, decide_eq_false_iff_not]
  omega

theorem hostRead_eq_refused {off : Nat} {s : State} {r : Refusal} :
    hostRead off s = .refused r ↔ legalOffset off = false ∧ r = .notATransaction off := by
  unfold hostRead
  split
  · next hl => simp only [hl]; split <;> simp
  · next hl => simp [hl, eq_comm]

theorem hostWrite_eq_refused {off : Nat} {v : Word} {s : State} {r : Refusal} :
    hostWrite off v s = .refused r ↔ legalOffset off = false ∧ r = .notATransaction off := by
  unfold hostWrite
  split
  · next hl => simp only [hl]; split <;> simp
  · next hl => simp [hl, eq_comm]

/-- Settles O37, by the kinds of step: only a read or a write of the host can be refused. -/
theorem onlyNonTransactionsAreRefused : Obligations.OnlyNonTransactionsAreRefused := by
  refine ⟨fun s off v hoff h => ?_, fun s r hr => ?_⟩
  · have hl := legalOffset_eq_false.2 hoff
    rcases h with h | h
    · exact (step_of_hostNext h).trans (hostRead_eq_refused.2 ⟨hl, rfl⟩)
    · exact (step_of_hostNext h).trans (hostWrite_eq_refused.2 ⟨hl, rfl⟩)
  · rcases step_cases s with ⟨w, -, -, hexec⟩ | hidle | ⟨m, hm⟩
    · obtain ⟨t, ht, -⟩ := exec_spec (decodeWord w) s.takeTurn
      simp [hexec, ht] at hr
    · simp [hidle] at hr
    · rw [step_of_hostNext hm] at hr
      cases m with
      | read off =>
        obtain ⟨hl, hr⟩ := hostRead_eq_refused.1 hr
        exact ⟨off, hr, legalOffset_eq_false.1 hl, .inl hm⟩
      | write off v =>
        obtain ⟨hl, hr⟩ := hostWrite_eq_refused.1 hr
        exact ⟨off, hr, legalOffset_eq_false.1 hl, .inr ⟨v, hm⟩⟩
      | wait => simp at hr
      | reset => simp at hr

/-! ### The offsets of the map -/

theorem legalOffset_of_le {off : Nat} (halign : off % 4 = 0) (hle : off ≤ 0x3FFC) : legalOffset off = true :=
  decide_eq_true ⟨hle, halign⟩

/-- Each row of the register map is a legal offset that selects its register (10_state.md R16). -/
theorem Target.ofOffset_of_mem_map {p : Nat × Reg} (h : p ∈ Reg.map) :
    legalOffset p.1 = true ∧ Target.ofOffset p.1 = .reg p.2 := by
  revert p
  decide

theorem legalOffset_payWord {k : Nat} (h : k < 1024) : legalOffset (0x1000 + 4 * k) = true :=
  legalOffset_of_le (by omega) (by omega)

theorem legalOffset_envWord {k : Nat} (h : k < 1024) : legalOffset (0x2000 + 4 * k) = true :=
  legalOffset_of_le (by omega) (by omega)

/-- The aligned offsets of the two reserved ranges (10_state.md R16, R32). -/
theorem ofOffset_of_reservedRange {off : Nat} (halign : off % 4 = 0)
    (h : (0x060 ≤ off ∧ off ≤ 0x0FFC) ∨ (0x3000 ≤ off ∧ off ≤ 0x3FFC)) :
    legalOffset off = true ∧ Target.ofOffset off = .reserved :=
  ⟨legalOffset_of_le halign (by omega), Target.ofOffset_reserved (by omega)⟩

/-! ### Idle reads -/

/-- Four lanes as a big-endian number (20_memory.md R45). -/
theorem toNat_lanes (b0 b1 b2 b3 : Byte) : (b0 ++ b1 ++ b2 ++ b3 : Word).toNat = unBE [b0, b1, b2, b3] := by
  rw [toNat_word]
  simp [unBE]
  omega

/-- Two upper lanes over two lanes that read 0, as a big-endian number (10_state.md R31). -/
theorem toNat_upperLanes (b0 b1 : Byte) : (b0 ++ b1 ++ 0#16 : Word).toNat = unBE [b0, b1, 0, 0] := by
  rw [toNat_upperWord]
  simp [unBE]

theorem laneWord_eq_ofNat (f : Nat → Byte) (k : Nat) :
    laneWord f k = BitVec.ofNat 32 (unBE [f (4 * k), f (4 * k + 1), f (4 * k + 2), f (4 * k + 3)]) := by
  rw [← toNat_lanes, BitVec.ofNat_toNat, BitVec.setWidth_eq]
  rfl

/-- PARAM as a number (10_state.md R18): the bounds of R7 keep both capacities below 2^16. -/
theorem toNat_paramWord (c : Config) : (paramWord c).toNat = (c.maxPayload + 44) * 2 ^ 16 + c.maxPayload := by
  have hle := c.maxPayload_le
  refine (toNat_append (BitVec.ofNat 16 c.maxEnvelope) (BitVec.ofNat 16 c.maxPayload)).trans ?_
  rw [Config.maxEnvelope_eq, BitVec.toNat_ofNat, BitVec.toNat_ofNat, Nat.mod_eq_of_lt (by omega),
    Nat.mod_eq_of_lt (by omega)]

/-- The number each register reads as while idle (20_memory.md R42, 10_state.md R17 to R31). -/
def State.regValue (s : State) : Reg → Nat
  | .id => 0x46524D31
  | .param => (s.cfg.maxPayload + 44) * 2 ^ 16 + s.cfg.maxPayload
  | .config => s.alg.toNat + 2 * s.ie.toNat
  | .status => 2 * s.done.toNat + 4 * s.haz.toNat + 8 * s.integrityOk.toNat + 256 * s.err.toNat
  | .cmd => 0
  | .startMarker => s.startMarker.toNat
  | .endMarker => s.endMarker.toNat
  | .envLen => s.envLen.toNat
  | .fc => s.fc.toNat
  | .duration => s.duration.toNat
  | .seqCtrl => s.seqCtrl.toNat
  | .plen => s.plen.toNat
  | .fcs => s.fcs.toNat
  | .chkResult => s.chkResult.toNat
  | .skipStart => s.skipStart.toNat
  | .skipEnd => s.skipEnd.toNat
  | .dest0 => unBE [s.dest.id0, s.dest.id1, s.dest.id2, s.dest.id3]
  | .dest1 => unBE [s.dest.id4, s.dest.id5, 0, 0]
  | .src0 => unBE [s.src.id0, s.src.id1, s.src.id2, s.src.id3]
  | .src1 => unBE [s.src.id4, s.src.id5, 0, 0]
  | .bssid0 => unBE [s.bssid.id0, s.bssid.id1, s.bssid.id2, s.bssid.id3]
  | .bssid1 => unBE [s.bssid.id4, s.bssid.id5, 0, 0]
  | .addr40 => unBE [s.addr4.id0, s.addr4.id1, s.addr4.id2, s.addr4.id3]
  | .addr41 => unBE [s.addr4.id4, s.addr4.id5, 0, 0]

theorem State.toNat_regWord {s : State} (hb : s.busy = false) (r : Reg) : (s.regWord r).toNat = s.regValue r := by
  cases r with
  | id | cmd | startMarker | endMarker | fcs | chkResult => rfl
  | param => exact toNat_paramWord s.cfg
  | config => exact s.toNat_configWord
  | status =>
    refine s.toNat_statusWord.trans ?_
    rw [hb, Bool.toNat_false, Nat.zero_add]
    rfl
  | envLen | fc | duration | seqCtrl | plen | skipStart | skipEnd => exact BitVec.toNat_setWidth_of_le (by decide)
  | dest0 | src0 | bssid0 | addr40 => exact toNat_lanes ..
  | dest1 | src1 | bssid1 | addr41 => exact toNat_upperLanes ..

theorem State.regWord_eq_ofNat {s : State} (hb : s.busy = false) (r : Reg) :
    s.regWord r = BitVec.ofNat 32 (s.regValue r) := by
  rw [← State.toNat_regWord hb, BitVec.ofNat_toNat, BitVec.setWidth_eq]

/-- A read while idle, by what its offset selects. -/
theorem step_read_target {s : State} {off : Nat} {T : Target} (hb : s.busy = false) (h : s.HostNext (.read off))
    (hT : legalOffset off = true ∧ Target.ofOffset off = T) :
    step s = .next { s.afterMove with reads := s.targetWord T :: s.reads } :=
  hT.2 ▸ step_read h hT.1 (.inl hb)

/-- Settles O29, by what the offset selects: a register of the map, a buffer word, or nothing. -/
theorem idleReadReturnsTheMappedWord : Obligations.IdleReadReturnsTheMappedWord := by
  intro s hb
  refine ⟨fun row hrow h => ?_, fun k hk h => ?_, fun k hk h => ?_, fun off halign hoff h => ?_⟩
  · have hmap : row ∈ Reg.map.map fun p => (p.1, s.regValue p.2) := hrow
    obtain ⟨p, hp, rfl⟩ := List.mem_map.1 hmap
    rw [← State.regWord_eq_ofNat hb]
    exact step_read_target hb h (Target.ofOffset_of_mem_map hp)
  · rw [← laneWord_eq_ofNat]
    exact step_read_target hb h ⟨legalOffset_payWord hk, Target.ofOffset_payWord hk⟩
  · rw [← laneWord_eq_ofNat]
    exact step_read_target hb h ⟨legalOffset_envWord hk, Target.ofOffset_envWord hk⟩
  · exact step_read_target hb h (ofOffset_of_reservedRange halign hoff)

/-! ### Idle writes -/

/-- The four lanes of a word are its big-endian encoding (20_memory.md R45). -/
theorem laneBytes_eq_be (v : Word) : laneBytes v = be 4 v.toNat := by
  simp [laneBytes, be, BitVec.extractLsb', Nat.shiftRight_eq_div_pow]

/-- A byte of a buffer after a word is stored: of the word's four lanes, those below the capacity (20_memory.md R43). -/
theorem Memory.read_store_laneBytes (cap : Nat) (m : Memory) (k : Nat) (v : Word) (a : Nat) :
    Memory.read (Memory.store cap m (4 * k) (laneBytes v)) a = if 4 * k ≤ a ∧ a < 4 * k + 4 ∧ a < cap
      then BitVec.ofNat 8 (v.toNat / 2 ^ (8 * (3 - (a - 4 * k)))) else Memory.read m a := by
  rw [Memory.read_store, length_laneBytes, laneBytes_eq_be]
  split
  · next h => exact getD_be v.toNat (by omega)
  · rfl

/-- A write while idle, by what its offset selects. -/
theorem step_write_target {s : State} {off : Nat} {v : Word} {T : Target} (hb : s.busy = false)
    (h : s.HostNext (.write off v)) (hT : legalOffset off = true ∧ Target.ofOffset off = T) :
    step s = .next (s.afterMove.writeTarget v T) :=
  hT.2 ▸ step_write_idle h hT.1 hb

/-- Settles O30, by what the offset selects: a register of the map, a buffer word, or nothing. -/
theorem idleWriteStoresTheImplementedBits : Obligations.IdleWriteStoresTheImplementedBits := by
  intro s v hb
  refine ⟨fun row hrow h => ?_, fun k hk h => ?_, fun k hk h => ?_, fun off halign hoff h => ?_⟩
  · rw [← Nat.shiftRight_eq_div_pow v.toNat 24, ← Nat.shiftRight_eq_div_pow v.toNat 16,
      ← Nat.shiftRight_eq_div_pow v.toNat 8] at hrow
    have hmap : row ∈ Reg.map.map fun p => (p.1, s.afterMove.writeReg v p.2) := hrow
    obtain ⟨p, hp, rfl⟩ := List.mem_map.1 hmap
    exact step_write_target hb h (Target.ofOffset_of_mem_map hp)
  · exact ⟨_, step_write_target hb h ⟨legalOffset_payWord hk, Target.ofOffset_payWord hk⟩,
      Memory.read_store_laneBytes s.cfg.maxPayload s.pay k v⟩
  · exact ⟨_, step_write_target hb h ⟨legalOffset_envWord hk, Target.ofOffset_envWord hk⟩,
      Memory.read_store_laneBytes s.cfg.maxEnvelope s.env k v⟩
  · exact step_write_target hb h (ofOffset_of_reservedRange halign hoff)

/-! ### The same write twice -/

/-- A store of the same bytes twice is one store. -/
theorem Memory.store_store (cap : Nat) (m : Memory) (a : Nat) (bs : List Byte) :
    Memory.store cap (Memory.store cap m a bs) a bs = Memory.store cap m a bs :=
  Memory.write_write m a _

/-- Clearing a flag twice by the same W1C bit is clearing it once (10_state.md R20). -/
theorem State.writeStatus_writeStatus (s : State) (v : Word) : (s.writeStatus v).writeStatus v = s.writeStatus v := by
  simp [State.writeStatus]

theorem State.writeTarget_writeTarget (s : State) (v : Word) (T : Target) :
    (s.writeTarget v T).writeTarget v T = s.writeTarget v T := by
  cases T with
  | reg r =>
    cases r with
    | status => exact s.writeStatus_writeStatus v
    | _ => rfl
  | payWord k => exact congrArg (fun m => { s with pay := m }) (Memory.store_store ..)
  | envWord k => exact congrArg (fun m => { s with env := m }) (Memory.store_store ..)
  | reserved => rfl

/-- No write reads or reaches the host's side. -/
theorem State.afterMove_writeTarget (s : State) (v : Word) (T : Target) :
    s.afterMove.writeTarget v T = (s.writeTarget v T).afterMove := by
  cases T with
  | reg r => cases r <;> rfl
  | _ => rfl

/-- Only a write to CMD reaches PEND (10_state.md R36). -/
theorem State.writeTarget_pend (s : State) (v : Word) {T : Target} (hc : T ≠ .reg .cmd) :
    (s.writeTarget v T).pend = s.pend := by
  by_cases hs : T = .reg .status
  · subst hs
    rfl
  · exact (s.writeTarget_flags v hc hs).1

/-- The host's turn on the last move of a script, with no schedule, takes that move alone. -/
theorem State.afterMove_of_last {s : State} {m : HostMove} (hscript : s.script = [m]) (hsched : s.schedule = []) :
    s.afterMove = { s with script := [] } := by
  rw [State.afterMove, hscript, hsched, List.tail_cons, List.tail_nil]

/-- Settles O32: the second write of the word leaves the target as the first left it. -/
theorem writesOtherThanCmdAreIdempotent : Obligations.WritesOtherThanCmdAreIdempotent := by
  intro s off v halign hle hoff
  have hl := legalOffset_of_le halign hle
  have hpend := (s.withScript [.write off v]).writeTarget_pend v (mt Target.eq_of_ofOffset_cmd hoff)
  obtain ⟨-, -, hscript, hsched, -⟩ := (s.withScript [.write off v]).writeTarget_frame v (Target.ofOffset off)
  have hnext : ((s.withScript [.write off v]).writeTarget v (Target.ofOffset off)).HostNext (.write off v) :=
    ⟨State.turn_of_idle hpend hsched, congrArg List.head? hscript⟩
  refine ⟨_, _, step_write_idle ⟨rfl, rfl⟩ hl rfl, step_write_idle hnext hl (State.busy_eq_false hpend), ?_⟩
  rw [State.afterMove_writeTarget, State.writeTarget_writeTarget]
  exact State.afterMove_of_last hscript hsched

end Sys2Proof.Machine
end

section
/-! PROOFS. The command word (30_encoding.md R57, R58): the encoder reaches every word from a well-formed command, and
decoding undoes it. -/

namespace Sys2Proof

theorem decodeWord_encode {i : Instr} (h : i.wellFormed = true) : decodeWord (encode i) = i := by
  cases i with
  | nop => exact Laws.CommandWord.nop h
  | encode => exact Laws.CommandWord.encode h
  | encodeKeep => exact Laws.CommandWord.encodeKeep h
  | decode => exact Laws.CommandWord.decode h
  | verify => exact Laws.CommandWord.verify h
  | checksum => exact Laws.CommandWord.checksum h
  | clear => exact Laws.CommandWord.clear h
  | reserved w => exact Laws.CommandWord.reserved w h

theorem wellFormed_reserved {w : Word} (h : 7 ≤ w.toNat) : (Instr.reserved w).wellFormed = true := decide_eq_true h

theorem decodeWord_of_seven_le {w : Word} (h : 7 ≤ w.toNat) : decodeWord w = .reserved w :=
  decodeWord_encode (wellFormed_reserved h)

/-- Each of the seven defined words is the command word of a defined command (30_encoding.md R58). -/
theorem exists_encode_eq_of_lt_seven : ∀ n < 7,
    ∃ i ∈ [Instr.nop, .encode, .encodeKeep, .decode, .verify, .checksum, .clear],
      i.wellFormed = true ∧ encode i = BitVec.ofNat 32 n := by decide

/-- "Every 32-bit word has exactly one row" (30_encoding.md R58): no word is without a command. -/
theorem exists_wellFormed_encode_eq (w : Word) : ∃ i : Instr, i.wellFormed = true ∧ encode i = w := by
  by_cases h : 7 ≤ w.toNat
  · exact ⟨.reserved w, wellFormed_reserved h, rfl⟩
  · obtain ⟨i, -, hi, henc⟩ := exists_encode_eq_of_lt_seven w.toNat (Nat.lt_of_not_le h)
    exact ⟨i, hi, henc.trans ((BitVec.ofNat_toNat 32 w).trans (BitVec.setWidth_eq w))⟩

theorem wellFormed_decodeWord_and_encode_decodeWord (w : Word) :
    (decodeWord w).wellFormed = true ∧ encode (decodeWord w) = w := by
  obtain ⟨i, hi, rfl⟩ := exists_wellFormed_encode_eq w
  rw [decodeWord_encode hi]
  exact ⟨hi, rfl⟩

/-- A word's bytes by lane hold the command of that word (20_memory.md R45, log 11). -/
theorem decode_wordBytes (w : Word) : decode (wordBytes w) = .ok (decodeWord w) :=
  congrArg (fun v => Except.ok (decodeWord v)) (Machine.append_lanes w)

/-- "The command word is always 32 bits" (30_encoding.md R57). -/
theorem exists_decode_eq_error {bs : List Byte} (h : bs.length ≠ 4) : ∃ e, decode bs = .error e := by
  match bs, h with
  | [], _ | [_], _ | [_, _], _ | [_, _, _], _ => exact ⟨.tooFewBytes, rfl⟩
  | [_, _, _, _], h => exact absurd rfl h
  | _ :: _ :: _ :: _ :: _ :: _, _ => exact ⟨.tooManyBytes, rfl⟩

/-- Settles O1: every word is the command word of a well-formed command, so decoding, which undoes the encoder on
well-formed commands, is its inverse on both sides. -/
theorem commandWordsDecodeAndEncodeAgree : Obligations.CommandWordsDecodeAndEncodeAgree := by
  refine ⟨fun i hi => ?_, fun w => ⟨decode_wordBytes w, wellFormed_decodeWord_and_encode_decodeWord w⟩,
    fun bs => exists_decode_eq_error⟩
  rw [decode_wordBytes, decodeWord_encode hi]

/-- Settles O2: the seven defined words by evaluation, the others because they encode themselves. -/
theorem opcodeMapGivesEveryWordOneRow : Obligations.OpcodeMapGivesEveryWordOneRow :=
  ⟨rfl, rfl, rfl, rfl, rfl, rfl, rfl, fun _ => decodeWord_of_seven_le⟩

end Sys2Proof
end

section
/-! PROOFS. The envelope's layout (30_encoding.md R61): ENV_BUF holds the whole envelope after ENCODE and ENCODE_KEEP,
and a buffer that holds a sequence holds each part of it at the sum of the lengths before it. -/

namespace Sys2Proof.Machine

/-- ENV_BUF holds a concatenation exactly where it holds its two parts one after the other. -/
theorem State.envRead_eq_append {s : State} {a : Nat} {xs ys : List Byte} :
    s.envRead a (xs ++ ys).length = xs ++ ys
      ↔ s.envRead a xs.length = xs ∧ s.envRead (a + xs.length) ys.length = ys := by
  rw [State.envRead, List.length_append, Memory.load_append]
  exact List.append_eq_append_iff_of_size_eq_left (Memory.length_load ..)

/-- The envelope that `emit` writes fits ENV_BUF and stands there whole. -/
theorem State.envRead_emit {s : State} (h : s.Fits) (t : Word) :
    (s.emit t).envRead 0 (s.envelope t).length = s.envelope t := by
  have hlen : (s.envelope t).length ≤ s.cfg.maxEnvelope := by
    rw [State.length_envelope, Config.maxEnvelope_eq, Nat.add_comm]
    exact Nat.add_le_add_right h 44
  calc (s.emit t).envRead 0 (s.envelope t).length
      = ((s.envelope t).drop (0 - 0)).take (s.envelope t).length :=
        Memory.load_store_slice s.env (Nat.le_refl 0) (Nat.le_refl _) (by rwa [Nat.zero_add])
    _ = s.envelope t := List.take_length

theorem State.toNat_envLen_emit {s : State} (h : s.Fits) (t : Word) : (s.emit t).envLen.toNat = 44 + s.plen.toNat := by
  have hmax := s.cfg.maxPayload_le
  have hlt : 44 + s.plen.toNat < 2 ^ 16 := by
    unfold State.Fits at h
    omega
  exact (BitVec.toNat_ofNat ..).trans (Nat.mod_eq_of_lt hlt)

/-- What ENCODE and ENCODE_KEEP have in common: they emit the envelope whose trailer is the FCS they leave, and
CHK_RESULT is the checksum of the body (41_frame_codec.md R77, R78). -/
theorem exists_exec_emits {s : State} {i : Instr} (h : s.Fits) (hi : i = .encode ∨ i = .encodeKeep) :
    ∃ t, exec i s = .next t ∧ t.envLen.toNat = 44 + s.plen.toNat
      ∧ t.envRead 0 (s.envelope t.fcs).length = s.envelope t.fcs ∧ t.chkResult = s.ck s.body := by
  rcases hi with rfl | rfl
  · exact ⟨_, execEncode_of_fits h, State.toNat_envLen_emit h (s.ck s.body), State.envRead_emit h (s.ck s.body), rfl⟩
  · exact ⟨_, execEncodeKeep_of_fits h, State.toNat_envLen_emit h s.fcs, State.envRead_emit h s.fcs, rfl⟩

/-- The parts of an envelope in ENV_BUF (41_frame_codec.md R76). -/
theorem State.envRead_envelope {s t : State} {c : Word}
    (h : t.envRead 0 (s.envelope c).length = s.envelope c) :
    t.envRead 0 4 = be 4 s.startMarker.toNat
      ∧ t.envRead 4 (32 + s.plen.toNat) = s.body
      ∧ t.envRead (36 + s.plen.toNat) 4 = be 4 c.toNat
      ∧ t.envRead (40 + s.plen.toNat) 4 = be 4 s.endMarker.toNat := by
  have htrailer : 0 + (4 + (32 + s.plen.toNat)) = 36 + s.plen.toNat := by omega
  have hend : 0 + (4 + (32 + s.plen.toNat) + 4) = 40 + s.plen.toNat := by omega
  simp only [State.envelope, State.envRead_eq_append] at h
  simp only [List.length_append, length_be, State.length_body, htrailer, hend] at h
  obtain ⟨⟨⟨hstart, hbody⟩, hcode⟩, hstop⟩ := h
  exact ⟨hstart, hbody, hcode, hstop⟩

/-- The fields of a body that stands in ENV_BUF from byte 4 on (41_frame_codec.md R75). -/
theorem State.envRead_body {s t : State} (h : t.envRead 4 s.body.length = s.body) :
    t.envRead 4 2 = be 2 s.fc.toNat
      ∧ t.envRead 6 2 = be 2 s.duration.toNat
      ∧ t.envRead 8 6 = s.dest.bytes
      ∧ t.envRead 14 6 = s.src.bytes
      ∧ t.envRead 20 6 = s.bssid.bytes
      ∧ t.envRead 26 2 = be 2 s.seqCtrl.toNat
      ∧ t.envRead 28 6 = s.addr4.bytes
      ∧ t.envRead 34 2 = be 2 s.plen.toNat
      ∧ t.envRead 36 s.plen.toNat = s.payRead 0 s.plen.toNat := by
  simp only [State.body, State.envRead_eq_append] at h
  simp only [List.length_append, length_be, length_fcWire, StationId.length_bytes, State.length_payRead,
    Nat.reduceAdd] at h
  obtain ⟨⟨⟨⟨⟨⟨⟨⟨hfc, hduration⟩, hdest⟩, hsrc⟩, hbssid⟩, hseq⟩, haddr4⟩, hplen⟩, hpay⟩ := h
  exact ⟨hfc, hduration, hdest, hsrc, hbssid, hseq, haddr4, hplen, hpay⟩

/-- Settles O11: the envelope stands whole in ENV_BUF, and its parts stand where the lengths before them add up to. -/
theorem envelopeFieldsStandAtTheirOffsets : Obligations.EnvelopeFieldsStandAtTheirOffsets := by
  intro s i hfits hi
  obtain ⟨t, ht, hlen, henv, hchk⟩ := exists_exec_emits hfits hi
  obtain ⟨hstart, hbody, hcode, hend⟩ := State.envRead_envelope henv
  obtain ⟨hfc, hduration, hdest, hsrc, hbssid, hseq, haddr4, hplen, hpay⟩ :=
    State.envRead_body (s.length_body ▸ hbody)
  exact ⟨t, ht, hlen, hstart, hfc, hduration, hdest, hsrc, hbssid, hseq, haddr4, hplen, hpay, hcode, hend,
    by rw [hchk, hbody]⟩

end Sys2Proof.Machine
end

section
/-! PROOFS. Bit fields of a u16 (40_frame_control.md R66 to R70, R74): a field in place is told apart from the others by
its bits, the fields of FrameControl cover the sixteen bits once, and the accessors follow. -/

namespace Sys2Proof.Machine

/-! ### One field -/

/-- The low bits of a value, moved to the field's place, every other bit 0: what R68 and R69 put in. -/
def HalfField.put (f : HalfField) (x : Nat) : Half := BitVec.ofNat 16 (x % 2 ^ f.width) <<< f.lo

/-- Two fields that share no bit. -/
abbrev HalfField.Apart (f g : HalfField) : Prop := f.lo + f.width ≤ g.lo ∨ g.lo + g.width ≤ f.lo

@[simp] theorem HalfField.testBit_get (f : HalfField) (v : Half) (i : Nat) :
    (f.get v).testBit i = (decide (i < f.width) && v.getLsbD (f.lo + i)) := by
  simp [HalfField.get, BitVec.getLsbD, Nat.testBit_mod_two_pow, Nat.testBit_div_two_pow, Nat.add_comm]

@[simp] theorem HalfField.getLsbD_mask (f : HalfField) (i : Nat) :
    f.mask.getLsbD i = (decide (i < 16) && decide (f.lo ≤ i) && decide (i - f.lo < f.width)) := by
  simp [HalfField.mask, BitVec.getLsbD_ofNat, Nat.testBit_mul_two_pow, Bool.and_assoc]

@[simp] theorem HalfField.getLsbD_put (f : HalfField) (x i : Nat) : (f.put x).getLsbD i
    = (decide (i < 16) && decide (f.lo ≤ i) && decide (i - f.lo < f.width) && x.testBit (i - f.lo)) := by
  simp only [HalfField.put, BitVec.getLsbD_shiftLeft, BitVec.getLsbD_ofNat, Nat.testBit_mod_two_pow]
  grind

theorem HalfField.get_mod (f : HalfField) (v : Half) : f.get v % 2 ^ f.width = f.get v := Nat.mod_mod _ _

/-- The reading of R67: shift down, then mask. -/
theorem HalfField.get_eq_shiftRight_and (f : HalfField) (v : Half) :
    f.get v = ((v >>> f.lo) &&& BitVec.ofNat 16 (2 ^ f.width - 1)).toNat := by
  refine Nat.eq_of_testBit_eq fun i => ?_
  simp only [HalfField.testBit_get, BitVec.testBit_toNat, BitVec.getLsbD_and, BitVec.getLsbD_ushiftRight,
    BitVec.getLsbD_ofNat, Nat.testBit_two_pow_sub_one]
  grind

/-- The writing of R68: clear the field, then put the value in. -/
theorem HalfField.set_eq_and_or_put (f : HalfField) (v : Half) (x : Nat) :
    f.set v x = (v &&& ~~~f.mask) ||| f.put x := by
  have hput : BitVec.ofNat 16 (x % 2 ^ f.width * 2 ^ f.lo) = f.put x := by
    refine BitVec.eq_of_toNat_eq ?_
    simp [HalfField.put, Nat.shiftLeft_eq]
  rw [HalfField.set, hput]

@[simp] theorem HalfField.get_or (f : HalfField) (v w : Half) : f.get (v ||| w) = f.get v ||| f.get w := by
  refine Nat.eq_of_testBit_eq fun i => ?_
  simp [Bool.and_or_distrib_left]

theorem HalfField.get_put_same {f : HalfField} (h : f.lo + f.width ≤ 16) (x : Nat) :
    f.get (f.put x) = x % 2 ^ f.width := by
  refine Nat.eq_of_testBit_eq fun i => ?_
  simp only [HalfField.testBit_get, HalfField.getLsbD_put, Nat.testBit_mod_two_pow]
  grind

theorem HalfField.get_put_apart {f g : HalfField} (h : f.Apart g) (x : Nat) : g.get (f.put x) = 0 := by
  refine Nat.eq_of_testBit_eq fun i => ?_
  simp only [HalfField.testBit_get, HalfField.getLsbD_put, Nat.zero_testBit]
  grind

theorem HalfField.get_clear_same (f : HalfField) (v : Half) : f.get (v &&& ~~~f.mask) = 0 := by
  refine Nat.eq_of_testBit_eq fun i => ?_
  simp only [HalfField.testBit_get, BitVec.getLsbD_and, BitVec.getLsbD_not, HalfField.getLsbD_mask, Nat.zero_testBit]
  grind

theorem HalfField.get_clear_apart {f g : HalfField} (h : f.Apart g) (v : Half) :
    g.get (v &&& ~~~f.mask) = g.get v := by
  refine Nat.eq_of_testBit_eq fun i => ?_
  simp only [HalfField.testBit_get, BitVec.getLsbD_and, BitVec.getLsbD_not, HalfField.getLsbD_mask]
  grind

theorem HalfField.get_set_same {f : HalfField} (h : f.lo + f.width ≤ 16) (v : Half) (x : Nat) :
    f.get (f.set v x) = x % 2 ^ f.width := by
  rw [set_eq_and_or_put, get_or, get_clear_same, get_put_same h, Nat.zero_or]

theorem HalfField.get_set_apart {f g : HalfField} (h : f.Apart g) (v : Half) (x : Nat) :
    g.get (f.set v x) = g.get v := by
  rw [set_eq_and_or_put, get_or, get_clear_apart h, get_put_apart h, Nat.or_zero]

/-! ### The fields of FrameControl -/

theorem mem_fcTable (f : FcField) : (f, f.place.lo, f.place.width, f.place.mask) ∈ fcTable := by
  cases f <;> decide

theorem eq_place_of_mem_fcTable : ∀ row ∈ fcTable, row = (row.1, row.1.place.lo, row.1.place.width, row.1.place.mask) := by
  decide

theorem exists_mem_fcTable (f : FcField) : ∃ row ∈ fcTable, row.1 = f := ⟨_, mem_fcTable f, rfl⟩

theorem FcField.place_le (f : FcField) : f.place.lo + f.place.width ≤ 16 := by
  cases f <;> decide

theorem FcField.place_apart {f g : FcField} (h : f ≠ g) : f.place.Apart g.place := by
  have htable : ∀ row ∈ fcTable, ∀ row' ∈ fcTable, row.1 ≠ row'.1 → row.1.place.Apart row'.1.place := by decide
  exact htable _ (mem_fcTable f) _ (mem_fcTable g) h

/-- No bit is outside the eleven fields (log 12). -/
theorem exists_field_of_bit {i : Nat} (h : i < 16) : ∃ f : FcField, f.place.lo ≤ i ∧ i < f.place.lo + f.place.width := by
  have htable : ∀ i < 16, ∃ row ∈ fcTable, row.1.place.lo ≤ i ∧ i < row.1.place.lo + row.1.place.width := by decide
  obtain ⟨row, -, hrow⟩ := htable i h
  exact ⟨row.1, hrow⟩

/-- A FrameControl value is its eleven fields. -/
theorem eq_of_fcGet_eq {v w : Half} (h : ∀ f, fcGet v f = fcGet w f) : v = w := by
  refine BitVec.eq_of_getLsbD_eq fun i hi => ?_
  obtain ⟨f, hlo, hhi⟩ := exists_field_of_bit hi
  have hbit := congrArg (·.testBit (i - f.place.lo)) (h f)
  have hwidth : i - f.place.lo < f.place.width := by omega
  simpa [fcGet, hwidth, Nat.add_sub_cancel' hlo] using hbit

/-- Settles O22: the table's rows are the fields' places. -/
theorem fcGetReadsTheTabledField : Obligations.FcGetReadsTheTabledField := by
  refine ⟨fun row hrow fc => ?_, exists_mem_fcTable, by decide, by decide⟩
  rw [eq_place_of_mem_fcTable row hrow]
  exact row.1.place.get_eq_shiftRight_and fc

/-- Settles O23: the value put in reaches the field's bits alone, and no two fields share a bit. -/
theorem fcSetWritesOneFieldOnly : Obligations.FcSetWritesOneFieldOnly := by
  refine ⟨fun row hrow fc v => ?_, exists_mem_fcTable, by decide, by decide, by decide⟩
  rw [eq_place_of_mem_fcTable row hrow]
  exact ⟨HalfField.set_eq_and_or_put _ fc v, HalfField.get_set_same row.1.place_le fc v,
    fun g hg => HalfField.get_set_apart (FcField.place_apart hg.symm) fc v⟩

/-! ### FC_Pack -/

/-- FC_Pack of one value a field (40_frame_control.md R69). -/
def fcPackFields (x : FcField → Nat) : Half :=
  fcPack (x .protocolVersion) (x .type) (x .subtype) (x .toStation) (x .toAP) (x .moreFragments) (x .retry)
    (x .powerManagement) (x .moreData) (x .privacy) (x .order)

theorem fcGet_or (v w : Half) (f : FcField) : fcGet (v ||| w) f = fcGet v f ||| fcGet w f := f.place.get_or v w

theorem fcGet_put (f g : FcField) (x : Nat) :
    fcGet (g.place.put x) f = if f = g then x % 2 ^ f.place.width else 0 := by
  split
  · next h => exact h ▸ HalfField.get_put_same f.place_le x
  · next h => exact HalfField.get_put_apart (FcField.place_apart (Ne.symm h)) x

/-- FC_Pack puts each value in its field's place. -/
theorem fcPackFields_eq_or_put (x : FcField → Nat) :
    fcPackFields x = (FcField.place .protocolVersion).put (x .protocolVersion) ||| (FcField.place .type).put (x .type)
      ||| (FcField.place .subtype).put (x .subtype) ||| (FcField.place .toStation).put (x .toStation)
      ||| (FcField.place .toAP).put (x .toAP) ||| (FcField.place .moreFragments).put (x .moreFragments)
      ||| (FcField.place .retry).put (x .retry) ||| (FcField.place .powerManagement).put (x .powerManagement)
      ||| (FcField.place .moreData).put (x .moreData) ||| (FcField.place .privacy).put (x .privacy)
      ||| (FcField.place .order).put (x .order) := by
  simp [fcPackFields, fcPack, HalfField.put, FcField.place]

/-- Of the eleven values FC_Pack puts in, each field holds its own. -/
theorem fcGet_fcPackFields (x : FcField → Nat) (f : FcField) : fcGet (fcPackFields x) f = x f % 2 ^ f.place.width := by
  rw [fcPackFields_eq_or_put]
  cases f <;> simp [fcGet_or, fcGet_put]

/-- FC_Pack of all the fields of a value is the value. -/
theorem fcPackFields_fcGet (fc : Half) : fcPackFields (fcGet fc) = fc :=
  eq_of_fcGet_eq fun f => (fcGet_fcPackFields (fcGet fc) f).trans (f.place.get_mod fc)

/-- Eleven values as one value a field, in FC_Pack's order. -/
def FcField.valueOf (pv ty st toSta toAP mf rt pm md pr od : Nat) : FcField → Nat
  | .protocolVersion => pv
  | .type => ty
  | .subtype => st
  | .toStation => toSta
  | .toAP => toAP
  | .moreFragments => mf
  | .retry => rt
  | .powerManagement => pm
  | .moreData => md
  | .privacy => pr
  | .order => od

/-- Settles O24: each field of FC_Pack holds its own value, and the fields of a value determine it. -/
theorem fcPackAndFcGetAreInverse : Obligations.FcPackAndFcGetAreInverse := by
  refine ⟨fcPackFields_fcGet, fun pv ty st toSta toAP mf rt pm md pr od => ?_, by decide⟩
  have hget := fcGet_fcPackFields (FcField.valueOf pv ty st toSta toAP mf rt pm md pr od)
  exact ⟨hget .protocolVersion, hget .type, hget .subtype, hget .toStation, hget .toAP, hget .moreFragments,
    hget .retry, hget .powerManagement, hget .moreData, hget .privacy, hget .order⟩

/-! ### The wire form -/

theorem fcWire_eq_bytes (fc : Half) : fcWire fc = [fc.extractLsb' 8 8, fc.extractLsb' 0 8] := by
  simp [fcWire, be, BitVec.extractLsb', Nat.shiftRight_eq_div_pow]

theorem fcUnwire_eq_append (b0 b1 : Byte) : fcUnwire b0 b1 = b0 ++ b1 := by
  have hsum : unBE [b0, b1] = (b0 ++ b1 : Half).toNat := by simp [unBE, toNat_half]
  rw [fcUnwire, hsum, BitVec.ofNat_toNat, BitVec.setWidth_eq]

theorem fcUnwire_bytes (fc : Half) : fcUnwire (fc.extractLsb' 8 8) (fc.extractLsb' 0 8) = fc := by
  rw [fcUnwire, ← fcWire_eq_bytes, fcWire, unBE_be, Nat.mod_eq_of_lt fc.isLt, BitVec.ofNat_toNat, BitVec.setWidth_eq]

theorem fcWire_fcUnwire (b0 b1 : Byte) : fcWire (fcUnwire b0 b1) = [b0, b1] := by
  have hnat : (fcUnwire b0 b1).toNat = unBE [b0, b1] := Nat.mod_eq_of_lt (unBE_lt [b0, b1])
  rw [fcWire, hnat]
  exact be_unBE [b0, b1]

/-- Settles O25: the wire form is BE_2, which unBE undoes. -/
theorem fcWireFormIsBigEndian : Obligations.FcWireFormIsBigEndian :=
  ⟨fun fc => ⟨fcWire_eq_bytes fc, fcUnwire_bytes fc⟩,
    fun b0 b1 => ⟨fcUnwire_eq_append b0 b1, fcWire_fcUnwire b0 b1⟩, by decide⟩

/-! ### sequenceControl -/

theorem fragmentNumber_get (seq : Half) : fragmentNumber.get seq = seq.toNat % 16 := by
  simp [HalfField.get, fragmentNumber]

theorem sequenceNumber_get (seq : Half) : sequenceNumber.get seq = seq.toNat / 16 := by
  have hseq := seq.isLt
  simp only [HalfField.get, sequenceNumber]
  omega

/-- A sequenceControl value is its two subfields. -/
theorem toNat_eq_subfields (seq : Half) : seq.toNat = sequenceNumber.get seq * 16 + fragmentNumber.get seq := by
  rw [sequenceNumber_get, fragmentNumber_get]
  omega

/-- Settles O26: each subfield is read back after a write of either, and the two make up the value. -/
theorem sequenceControlSubfields : Obligations.SequenceControlSubfields := by
  intro seq v
  have hapart : fragmentNumber.Apart sequenceNumber := by decide
  refine ⟨fragmentNumber_get seq, sequenceNumber_get seq, ?_, ?_⟩
  · rw [toNat_eq_subfields, HalfField.get_set_apart hapart, HalfField.get_set_same (by decide), sequenceNumber_get]
    rfl
  · rw [toNat_eq_subfields, HalfField.get_set_same (by decide), HalfField.get_set_apart hapart.symm, fragmentNumber_get]
    rfl

end Sys2Proof.Machine
end

section
/-! PROOFS. What the codec reads from the buffers (00_scope.md R10, R11): bytes from loads, numbers from bytes, and the
fields of a frame from the bytes of its body. -/

namespace Sys2Proof.Machine

/-! ### Bytes and loads -/

/-- Buffers that agree on a range agree on each byte of it. -/
theorem Memory.loadByte_eq_of_load_eq {cap cap' : Nat} {m m' : Memory} {i n k : Nat}
    (h : Memory.load cap m i n = Memory.load cap' m' i n) (hi : i ≤ k) (hn : k < i + n) :
    Memory.loadByte cap m k = Memory.loadByte cap' m' k := by
  have hbyte := List.map_inj_left.1 h (k - i) (List.mem_range.2 (by omega))
  rwa [Nat.add_sub_cancel' hi] at hbyte

theorem State.getD_envRead (s : State) (a : Nat) {n k : Nat} (h : k < n) :
    (s.envRead a n).getD k 0 = s.envByte (a + k) := by
  simp [State.envRead, State.envByte, Memory.load, List.getD_eq_getElem?_getD, h]

/-! ### Numbers in ENV_BUF -/

theorem State.be_memRead (s : State) (a n : Nat) : be n (s.memRead a n) = s.envRead a n := by
  have h := be_unBE (s.envRead a n)
  rwa [State.length_envRead] at h

/-- A number stands in ENV_BUF exactly where its encoding does. -/
theorem State.memRead_eq_iff {s : State} {a n v : Nat} (hv : v < 2 ^ (8 * n)) :
    s.memRead a n = v ↔ s.envRead a n = be n v := by
  constructor
  · rintro rfl
    exact (s.be_memRead a n).symm
  · intro h
    rw [State.memRead, h, unBE_be, Nat.mod_eq_of_lt hv]

theorem be_eq_be_iff {n v w : Nat} (hv : v < 2 ^ (8 * n)) (hw : w < 2 ^ (8 * n)) : be n v = be n w ↔ v = w := by
  refine ⟨fun h => ?_, congrArg (be n)⟩
  have hnum := congrArg unBE h
  rwa [unBE_be, unBE_be, Nat.mod_eq_of_lt hv, Nat.mod_eq_of_lt hw] at hnum

theorem State.memRead_lt (s : State) (a n : Nat) : s.memRead a n < 2 ^ (8 * n) := by
  simpa [State.memRead] using unBE_lt (s.envRead a n)

/-- A register that takes an n-byte number of ENV_BUF encodes to those bytes. -/
theorem State.be_ofNat_memRead (s : State) (a n : Nat) :
    be n (BitVec.ofNat (8 * n) (s.memRead a n)).toNat = s.envRead a n := by
  rw [BitVec.toNat_ofNat, Nat.mod_eq_of_lt (s.memRead_lt a n), State.be_memRead]

/-- A u16 taken from ENV_BUF (00_scope.md R11). -/
theorem State.ofNat_memRead_two (s : State) (a : Nat) :
    BitVec.ofNat 16 (s.memRead a 2) = s.envByte a ++ s.envByte (a + 1) :=
  fcUnwire_eq_append (s.envByte a) (s.envByte (a + 1))

/-- A u32 taken from ENV_BUF (00_scope.md R11). -/
theorem State.ofNat_memRead_four (s : State) (a : Nat) : BitVec.ofNat 32 (s.memRead a 4)
    = s.envByte a ++ s.envByte (a + 1) ++ s.envByte (a + 2) ++ s.envByte (a + 3) := by
  refine BitVec.eq_of_toNat_eq ((BitVec.toNat_ofNat ..).trans ?_)
  rw [Nat.mod_eq_of_lt (s.memRead_lt a 4), toNat_lanes]
  rfl

theorem State.prefixLen_lt (s : State) : s.prefixLen < 2 ^ 16 := s.memRead_lt 34 2

/-- The payload length of the envelope by its two bytes (30_encoding.md R61). -/
theorem State.prefixLen_eq_bytes (s : State) :
    s.prefixLen = (s.envByte 34).toNat * 256 + (s.envByte 35).toNat := by
  show unBE [s.envByte 34, s.envByte 35] = _
  simp [unBE]

/-! ### A frame and its body -/

theorem eq_of_be_two_toNat {v w : Half} (h : be 2 v.toNat = be 2 w.toNat) : v = w :=
  BitVec.eq_of_toNat_eq ((be_eq_be_iff v.isLt w.isLt).1 h)

theorem StationId.eq_of_bytes_eq {i j : StationId} (h : i.bytes = j.bytes) : i = j := by
  cases i
  cases j
  simpa [StationId.bytes] using h

theorem State.SameFrame.trans {s t u : State} (h : s.SameFrame t) (h' : t.SameFrame u) : s.SameFrame u where
  fc := h.fc.trans h'.fc
  duration := h.duration.trans h'.duration
  dest := h.dest.trans h'.dest
  src := h.src.trans h'.src
  bssid := h.bssid.trans h'.bssid
  seqCtrl := h.seqCtrl.trans h'.seqCtrl
  addr4 := h.addr4.trans h'.addr4
  plen := h.plen.trans h'.plen
  pay i hi := (h.pay i hi).trans (h'.pay i (h.plen ▸ hi))

/-- Body() determines the frame: two bodies that stand in one ENV_BUF are of the same frame (41_frame_codec.md R75). -/
theorem State.sameFrame_of_envRead_body {s u t : State} (hs : t.envRead 4 s.body.length = s.body)
    (hu : t.envRead 4 u.body.length = u.body) : s.SameFrame u := by
  obtain ⟨hfc, hduration, hdest, hsrc, hbssid, hseq, haddr4, hplen, hpay⟩ := State.envRead_body hs
  obtain ⟨hfc', hduration', hdest', hsrc', hbssid', hseq', haddr4', hplen', hpay'⟩ := State.envRead_body hu
  have hlen : s.plen = u.plen := eq_of_be_two_toNat (hplen.symm.trans hplen')
  have hload : s.payRead 0 s.plen.toNat = u.payRead 0 s.plen.toNat := by
    rw [← hpay, hlen, hpay']
  exact {
    fc := eq_of_be_two_toNat (hfc.symm.trans hfc')
    duration := eq_of_be_two_toNat (hduration.symm.trans hduration')
    dest := StationId.eq_of_bytes_eq (hdest.symm.trans hdest')
    src := StationId.eq_of_bytes_eq (hsrc.symm.trans hsrc')
    bssid := StationId.eq_of_bytes_eq (hbssid.symm.trans hbssid')
    seqCtrl := eq_of_be_two_toNat (hseq.symm.trans hseq')
    addr4 := StationId.eq_of_bytes_eq (haddr4.symm.trans haddr4')
    plen := hlen
    pay := fun i hi => Memory.loadByte_eq_of_load_eq hload (Nat.zero_le i) (by omega) }

/-! ### The frame that DECODE leaves -/

/-- What a DECODE without an error leaves (41_frame_codec.md R79). -/
def State.decoded (s : State) : State :=
  { s.loadFrame s.prefixLen with
    fcs := BitVec.ofNat 32 (s.memRead (36 + s.prefixLen) 4)
    chkResult := s.ck (s.envRead 4 (32 + s.prefixLen))
    integrityOk := decide (s.ck (s.envRead 4 (32 + s.prefixLen))
      = BitVec.ofNat 32 (s.memRead (36 + s.prefixLen) 4)) }.complete .ok

theorem execDecode_eq_decoded {s : State} (h : s.decodeError = none) : exec .decode s = .next s.decoded :=
  execDecode_of_none h

theorem State.toNat_plen_decoded (s : State) : s.decoded.plen.toNat = s.prefixLen :=
  (BitVec.toNat_ofNat ..).trans (Nat.mod_eq_of_lt s.prefixLen_lt)

/-- The bytes of ENV_BUF after the start marker are the body of the frame that DECODE leaves (41_frame_codec.md R75,
R79). -/
theorem State.envRead_body_decoded {s : State} (h : s.prefixLen ≤ s.cfg.maxPayload) :
    s.envRead 4 s.decoded.body.length = s.decoded.body := by
  have hpay : s.decoded.payRead 0 s.prefixLen = s.envRead 36 s.prefixLen := by
    have hstored := Memory.load_store_slice (cap := s.cfg.maxPayload) s.pay (bs := s.envRead 36 s.prefixLen)
      (n := s.prefixLen) (Nat.le_refl 0) (by simp) (by omega)
    refine hstored.trans ?_
    rw [Nat.sub_zero, List.drop_zero]
    exact List.take_of_length_le (by simp)
  simp only [State.body, State.envRead_eq_append]
  simp only [List.length_append, length_be, length_fcWire, StationId.length_bytes, State.length_envRead,
    Nat.reduceAdd, State.toNat_plen_decoded, hpay]
  exact ⟨⟨⟨⟨⟨⟨⟨⟨(fcWire_fcUnwire _ _).symm, (s.be_ofNat_memRead 6 2).symm⟩, rfl⟩, rfl⟩, rfl⟩,
    (s.be_ofNat_memRead 26 2).symm⟩, rfl⟩, (s.be_memRead 34 2).symm⟩, trivial⟩

/-- DECODE takes CHK_RESULT over the body of the frame it leaves. -/
theorem State.chkResult_decoded {s : State} (h : s.prefixLen ≤ s.cfg.maxPayload) :
    s.decoded.chkResult = s.decoded.ck s.decoded.body := by
  have hbody := State.envRead_body_decoded h
  rw [State.length_body, State.toNat_plen_decoded] at hbody
  rw [← hbody]
  rfl

theorem State.err_decoded (s : State) : s.decoded.err = 0 := rfl

theorem State.fcs_decoded (s : State) : s.decoded.fcs = BitVec.ofNat 32 (s.memRead (36 + s.prefixLen) 4) := rfl

theorem State.integrityOk_decoded (s : State) : s.decoded.integrityOk = decide (s.decoded.chkResult = s.decoded.fcs) :=
  rfl

end Sys2Proof.Machine
end

section
/-! PROOFS. The round trips of 41_frame_codec.md R80 and R81: after ENCODE, ENCODE_KEEP and a successful DECODE alike,
ENV_BUF holds the envelope of the registers' frame with FCS as its trailer. -/

namespace Sys2Proof.Machine

/-- The frame of `s` fits, and ENV_LEN and ENV_BUF hold Envelope(FCS) (41_frame_codec.md R76). -/
structure State.HoldsItsEnvelope (s : State) : Prop where
  fits : s.Fits
  envLen : s.envLen.toNat = 44 + s.plen.toNat
  env : s.envRead 0 (s.envelope s.fcs).length = s.envelope s.fcs

/-! ### Encode, then decode -/

/-- What ENCODE and ENCODE_KEEP leave: the envelope with trailer `c`, and `c` in FCS. -/
def State.encoded (s : State) (c : Word) (ok : Bool) : State :=
  { s.emit c with fcs := c, chkResult := s.ck s.body, integrityOk := ok }.complete .ok

theorem execEncode_eq_encoded {s : State} (h : s.Fits) : exec .encode s = .next (s.encoded (s.ck s.body) true) :=
  execEncode_of_fits h

theorem execEncodeKeep_eq_encoded {s : State} (h : s.Fits) :
    exec .encodeKeep s = .next (s.encoded s.fcs (decide (s.ck s.body = s.fcs))) :=
  execEncodeKeep_of_fits h

theorem State.sameFrame_encoded (s : State) (c : Word) (ok : Bool) : s.SameFrame (s.encoded c ok) :=
  ⟨rfl, rfl, rfl, rfl, rfl, rfl, rfl, rfl, fun _ _ => rfl⟩

theorem State.holdsItsEnvelope_encoded {s : State} (h : s.Fits) (c : Word) (ok : Bool) :
    (s.encoded c ok).HoldsItsEnvelope :=
  ⟨h, State.toNat_envLen_emit h c, State.envRead_emit h c⟩

/-- DECODE accepts an envelope that ENV_BUF holds, gives its frame back, and reports whether its trailer is the right
code. -/
theorem State.HoldsItsEnvelope.exec_decode {t : State} (h : t.HoldsItsEnvelope) : ∃ u, exec .decode t = .next u
    ∧ u.err = 0 ∧ u.integrityOk = decide (t.ck t.body = t.fcs) ∧ t.SameFrame u ∧ u.fcs = t.fcs := by
  obtain ⟨hstart, hbody, htrailer, hend⟩ := State.envRead_envelope h.env
  have hbody' : t.envRead 4 t.body.length = t.body := t.length_body ▸ hbody
  obtain ⟨-, -, -, -, -, -, -, hplen, -⟩ := State.envRead_body hbody'
  have hprefix : t.prefixLen = t.plen.toNat := (State.memRead_eq_iff t.plen.isLt).2 hplen
  have hchecks : t.decodeError = none := by
    rw [State.decodeError_eq_none, hprefix]
    exact ⟨h.envLen, h.fits, (State.memRead_eq_iff t.startMarker.isLt).2 hstart,
      (State.memRead_eq_iff t.endMarker.isLt).2 hend⟩
  have hfcs : t.decoded.fcs = t.fcs := by
    rw [t.fcs_decoded, hprefix, (State.memRead_eq_iff t.fcs.isLt).2 htrailer, BitVec.ofNat_toNat, BitVec.setWidth_eq]
  have hchk : t.decoded.chkResult = t.ck t.body := by
    rw [← hbody, ← hprefix]
    rfl
  refine ⟨t.decoded, execDecode_eq_decoded hchecks, t.err_decoded, ?_, ?_, hfcs⟩
  · rw [t.integrityOk_decoded, hfcs, hchk]
  · exact State.sameFrame_of_envRead_body hbody' (State.envRead_body_decoded (hprefix ▸ h.fits))

/-- Settles O13: both commands leave the frame's envelope in ENV_BUF, and DECODE gives back the frame of an envelope
that stands there. -/
theorem encodeThenDecodeGivesTheFrameBack : Obligations.EncodeThenDecodeGivesTheFrameBack := by
  intro s _ hfits
  constructor
  · obtain ⟨u, hu, herr, hok, hsame, hfcs⟩ :=
      (State.holdsItsEnvelope_encoded hfits (s.ck s.body) true).exec_decode
    exact ⟨_, u, execEncode_eq_encoded hfits, hu, herr, hok.trans (decide_eq_true rfl),
      (s.sameFrame_encoded _ _).trans hsame, hsame, hfcs⟩
  · obtain ⟨u, hu, herr, hok, hsame, hfcs⟩ :=
      (State.holdsItsEnvelope_encoded hfits s.fcs (decide (s.ck s.body = s.fcs))).exec_decode
    exact ⟨_, u, execEncodeKeep_eq_encoded hfits, hu, herr, hok.trans (decide_eq_decide.2 eq_comm),
      (s.sameFrame_encoded _ _).trans hsame, hsame, hfcs, hfcs⟩

/-! ### Decode, then encode -/

/-- An error that a check of DECODE gives is not OK (41_frame_codec.md R79). -/
theorem State.code_ne_zero_of_decodeError {s : State} {e : ErrorCode} (h : s.decodeError = some e) : e.code ≠ 0 := by
  intro hzero
  obtain rfl : e = .ok := by cases e <;> simp [ErrorCode.code] at hzero ⊢
  unfold State.decodeError at h
  simp only [] at h
  repeat' split at h
  all_goals simp at h

/-- A DECODE that leaves no error found none. -/
theorem execDecode_ok {s t : State} (h : exec .decode s = .next t) (herr : t.err = 0) :
    s.decodeError = none ∧ t = s.decoded := by
  cases executed_iff.2 h with
  | decode hchecks => exact ⟨hchecks, rfl⟩
  | badEnvelope hchecks => exact absurd herr (State.code_ne_zero_of_decodeError hchecks)
  | oversize hi => simp at hi

/-- An envelope stands in ENV_BUF where its parts do (41_frame_codec.md R76). -/
theorem State.envRead_envelope_of_parts {s t : State} {c : Word} (hstart : t.envRead 0 4 = be 4 s.startMarker.toNat)
    (hbody : t.envRead 4 s.body.length = s.body) (htrailer : t.envRead (36 + s.plen.toNat) 4 = be 4 c.toNat)
    (hend : t.envRead (40 + s.plen.toNat) 4 = be 4 s.endMarker.toNat) :
    t.envRead 0 (s.envelope c).length = s.envelope c := by
  have hatTrailer : 0 + (4 + (32 + s.plen.toNat)) = 36 + s.plen.toNat := by omega
  have hatEnd : 0 + (4 + (32 + s.plen.toNat) + 4) = 40 + s.plen.toNat := by omega
  simp only [State.envelope, State.envRead_eq_append]
  simp only [List.length_append, length_be, State.length_body, hatTrailer, hatEnd]
  exact ⟨⟨⟨hstart, s.length_body ▸ hbody⟩, htrailer⟩, hend⟩

/-- A DECODE without an error leaves ENV_LEN and ENV_BUF alone, and they hold the envelope of the frame it loads. -/
theorem execDecode_holdsItsEnvelope {s t : State} (h : exec .decode s = .next t) (herr : t.err = 0) :
    t.HoldsItsEnvelope ∧ t.envLen = s.envLen ∧ (∀ a, t.envByte a = s.envByte a)
      ∧ t.integrityOk = decide (t.ck t.body = t.fcs) := by
  obtain ⟨hchecks, rfl⟩ := execDecode_ok h herr
  obtain ⟨hlen, hfits, hstart, hend⟩ := State.decodeError_eq_none.1 hchecks
  have hplen := s.toNat_plen_decoded
  have henv : s.envRead 0 (s.decoded.envelope s.decoded.fcs).length = s.decoded.envelope s.decoded.fcs := by
    refine State.envRead_envelope_of_parts ((State.memRead_eq_iff s.startMarker.isLt).1 hstart)
      (State.envRead_body_decoded hfits) ?_ ?_
    · rw [hplen, s.fcs_decoded]
      exact (s.be_ofNat_memRead _ 4).symm
    · rw [hplen]
      exact (State.memRead_eq_iff s.endMarker.isLt).1 hend
  refine ⟨⟨hplen.trans_le hfits, ?_, henv⟩, rfl, fun _ => rfl, ?_⟩
  · rw [hplen]
    exact hlen
  · rw [s.integrityOk_decoded, State.chkResult_decoded hfits]

/-- Bytes of ENV_BUF above the envelope stay as they were (41_frame_codec.md R77). -/
theorem State.envByte_encoded_of_ge {s : State} {a : Nat} (c : Word) (ok : Bool) (h : 44 + s.plen.toNat ≤ a) :
    (s.encoded c ok).envByte a = s.envByte a := by
  refine (Memory.loadByte_store ..).trans (if_neg ?_)
  rw [State.length_envelope]
  omega

theorem State.HoldsItsEnvelope.envLen_encoded {s : State} (h : s.HoldsItsEnvelope) (c : Word) (ok : Bool) :
    (s.encoded c ok).envLen = s.envLen :=
  BitVec.eq_of_toNat_eq ((State.toNat_envLen_emit h.fits c).trans h.envLen.symm)

/-- Writing the envelope that ENV_BUF holds changes no byte of it. -/
theorem State.HoldsItsEnvelope.envByte_encoded_fcs {s : State} (h : s.HoldsItsEnvelope) (ok : Bool) (a : Nat) :
    (s.encoded s.fcs ok).envByte a = s.envByte a := by
  rcases Nat.lt_or_ge a (44 + s.plen.toNat) with ha | ha
  · have hload : (s.encoded s.fcs ok).envRead 0 (s.envelope s.fcs).length = s.envRead 0 (s.envelope s.fcs).length :=
      (State.envRead_emit h.fits s.fcs).trans h.env.symm
    exact Memory.loadByte_eq_of_load_eq hload (Nat.zero_le a) (by rw [State.length_envelope]; omega)
  · exact State.envByte_encoded_of_ge s.fcs ok ha

/-- Writing the envelope that ENV_BUF holds with another trailer changes the bytes of the trailer alone. -/
theorem State.HoldsItsEnvelope.envByte_encoded {s : State} (h : s.HoldsItsEnvelope) (c : Word) (ok : Bool) {a : Nat}
    (ha : a < 36 + s.plen.toNat ∨ 40 + s.plen.toNat ≤ a) : (s.encoded c ok).envByte a = s.envByte a := by
  obtain ⟨hstart, hbody, -, hend⟩ := State.envRead_envelope h.env
  obtain ⟨hstart', hbody', -, hend'⟩ := State.envRead_envelope (State.envRead_emit h.fits c)
  rcases Nat.lt_or_ge a 4 with h4 | h4
  · exact Memory.loadByte_eq_of_load_eq (hstart'.trans hstart.symm) (Nat.zero_le a) (by omega)
  rcases Nat.lt_or_ge a (36 + s.plen.toNat) with h36 | h36
  · exact Memory.loadByte_eq_of_load_eq (hbody'.trans hbody.symm) h4 (by omega)
  rcases Nat.lt_or_ge a (44 + s.plen.toNat) with h44 | h44
  · exact Memory.loadByte_eq_of_load_eq (hend'.trans hend.symm) (by omega) (by omega)
  · exact State.envByte_encoded_of_ge c ok h44

/-- Settles O14: after the DECODE, ENV_BUF holds the envelope of the registers' frame, so encoding that frame writes
what stands there, but for the trailer where FCS is not the right code. -/
theorem decodeThenEncodeRestoresTheEnvelope : Obligations.DecodeThenEncodeRestoresTheEnvelope := by
  intro s t h herr
  obtain ⟨hholds, hlen, hbytes, hok⟩ := execDecode_holdsItsEnvelope h herr
  refine ⟨⟨_, execEncodeKeep_eq_encoded hholds.fits, (hholds.envLen_encoded _ _).trans hlen,
      fun a => (hholds.envByte_encoded_fcs _ a).trans (hbytes a)⟩,
    ⟨_, execEncode_eq_encoded hholds.fits, (hholds.envLen_encoded _ _).trans hlen, fun hright a => ?_,
      fun _ => ⟨?_, fun a ha => (hholds.envByte_encoded _ _ ha).trans (hbytes a)⟩⟩⟩
  · have hcode : t.ck t.body = t.fcs := of_decide_eq_true (hok.symm.trans hright)
    rw [hcode]
    exact (hholds.envByte_encoded_fcs true a).trans (hbytes a)
  · obtain ⟨-, -, htrailer, -⟩ := State.envRead_envelope (State.envRead_emit hholds.fits (t.ck t.body))
    exact htrailer

end Sys2Proof.Machine
end

section
/-! PROOFS. ENCODE, ENCODE_KEEP and DECODE as exact next states (41_frame_codec.md R77 to R79). -/

namespace Sys2Proof.Machine

/-! ### ENCODE and ENCODE_KEEP -/

/-- ENV_BUF after ENCODE and ENCODE_KEEP: the envelope, and every byte above it as before (41_frame_codec.md R77). -/
theorem State.read_encoded_env {s : State} (h : s.Fits) (c : Word) (ok : Bool) (a : Nat) :
    Memory.read (s.encoded c ok).env a
      = if a < 44 + s.plen.toNat then (s.envelope c).getD a 0 else Memory.read s.env a := by
  have hcap : 44 + s.plen.toNat ≤ s.cfg.maxEnvelope := by
    rw [Config.maxEnvelope_eq, Nat.add_comm]
    exact Nat.add_le_add_right h 44
  refine (Memory.read_store ..).trans ?_
  rw [State.length_envelope, Nat.sub_zero]
  congr 1
  exact propext (by omega)

/-- Settles O9, on both sides of the bound on PLEN. -/
theorem encodeStampsTheFrame : Obligations.EncodeStampsTheFrame := by
  refine ⟨rfl, fun s => ⟨fun h => execEncode_of_not_fits (Nat.not_le.2 h), fun h => ?_⟩⟩
  have hmax := s.cfg.maxPayload_le
  exact ⟨_, execEncode_eq_encoded h, by omega, s.length_envelope _, State.read_encoded_env h _ true⟩

/-- Settles O10, on both sides of the bound on PLEN; with the right FCS both commands leave the same state. -/
theorem encodeKeepEmitsFcsAsTheTrailer : Obligations.EncodeKeepEmitsFcsAsTheTrailer := by
  refine ⟨rfl, fun s => ⟨fun h => execEncodeKeep_of_not_fits (Nat.not_le.2 h),
    fun h => ⟨_, execEncodeKeep_eq_encoded h, State.read_encoded_env h s.fcs (decide (s.ck s.body = s.fcs))⟩,
    fun h hfcs => ?_⟩⟩
  rw [execEncodeKeep_eq_encoded h, execEncode_eq_encoded h, hfcs, decide_eq_true rfl]

/-! ### DECODE -/

/-- The checks of R79 on the numbers and on the bytes of the envelope give the same error. -/
theorem State.decodeErrOwed_eq (s : State) :
    s.decodeErrOwed = s.decodeError.elim 0 fun e => e.code.toNat := by
  have hstart : s.memRead 0 4 = s.startMarker.toNat ↔ s.envRead 0 4 = be 4 s.startMarker.toNat :=
    State.memRead_eq_iff s.startMarker.isLt
  have hend : s.memRead (40 + s.prefixLen) 4 = s.endMarker.toNat
      ↔ s.envRead (40 + s.prefixLen) 4 = be 4 s.endMarker.toNat := State.memRead_eq_iff s.endMarker.isLt
  simp only [State.decodeError, State.decodeErrOwed, ← State.prefixLen_eq_bytes, hstart, hend,
    apply_ite (fun e : Option ErrorCode => e.elim 0 fun e => e.code.toNat), ne_eq, gt_iff_lt]
  rfl

theorem State.decodeErrOwed_of_none {s : State} (h : s.decodeError = none) : s.decodeErrOwed = 0 := by
  rw [State.decodeErrOwed_eq, h, Option.elim_none]

theorem State.decodeErrOwed_of_some {s : State} {e : ErrorCode} (h : s.decodeError = some e) :
    s.decodeErrOwed = e.code.toNat ∧ s.decodeErrOwed ≠ 0 := by
  have herr : s.decodeErrOwed = e.code.toNat := by
    rw [State.decodeErrOwed_eq, h, Option.elim_some]
  refine ⟨herr, fun hzero => State.code_ne_zero_of_decodeError h (BitVec.eq_of_toNat_eq ?_)⟩
  rw [← herr, hzero]
  rfl

/-- PAYLOAD_BUF after DECODE: the envelope's payload, and every byte above it as before (41_frame_codec.md R79). -/
theorem State.read_decoded_pay {s : State} (h : s.prefixLen ≤ s.cfg.maxPayload) (a : Nat) :
    Memory.read s.decoded.pay a = if a < s.prefixLen then s.envByte (36 + a) else Memory.read s.pay a := by
  refine (Memory.read_store ..).trans ?_
  rw [State.length_envRead, Nat.sub_zero]
  by_cases ha : a < s.prefixLen
  · rw [if_pos ha, if_pos (by omega), State.getD_envRead s 36 ha]
  · rw [if_neg ha, if_neg (by omega)]

/-- FCS after DECODE by the four bytes of the trailer (30_encoding.md R61). -/
theorem State.fcs_decoded_eq_bytes (s : State) : s.decoded.fcs = s.envByte (36 + s.prefixLen)
    ++ s.envByte (37 + s.prefixLen) ++ s.envByte (38 + s.prefixLen) ++ s.envByte (39 + s.prefixLen) := by
  rw [s.fcs_decoded, s.ofNat_memRead_four, Nat.add_right_comm 36 _ 1, Nat.add_right_comm 36 _ 2,
    Nat.add_right_comm 36 _ 3]

/-- Settles O12, by the first check that fails, if any. -/
theorem decodeChecksThenWritesTheFrame : Obligations.DecodeChecksThenWritesTheFrame := by
  refine ⟨rfl, fun s => ?_⟩
  cases hchecks : s.decodeError with
  | some e =>
    obtain ⟨hcode, hne⟩ := State.decodeErrOwed_of_some hchecks
    refine ⟨fun _ => ?_, fun h => absurd h hne⟩
    rw [hcode, BitVec.ofNat_toNat, BitVec.setWidth_eq]
    exact execDecode_of_error hchecks
  | none =>
    obtain ⟨hlen, hfits, -, -⟩ := State.decodeError_eq_none.1 hchecks
    refine ⟨fun h => absurd (State.decodeErrOwed_of_none hchecks) h, fun _ =>
      ⟨s.prefixLen, s.decoded.pay, s.envId 8, s.envId 14, s.envId 20, s.envId 28, ?_, ?_, hlen, hfits,
        rfl, rfl, rfl, rfl, State.read_decoded_pay hfits⟩⟩
    · have hplen : BitVec.ofNat 16 s.prefixLen = s.envByte 34 ++ s.envByte 35 := s.ofNat_memRead_two 34
      rw [execDecode_eq_decoded hchecks, ← s.fcs_decoded_eq_bytes, ← fcUnwire_eq_append (s.envByte 4),
        ← s.ofNat_memRead_two 6, ← s.ofNat_memRead_two 26, ← hplen]
      rfl
    · rw [toNat_half]
      exact s.prefixLen_eq_bytes

end Sys2Proof.Machine
end

section
/-! PROOFS. What the codec and checksum commands read (41_frame_codec.md R82, 42_checksum.md R88 to R90): each operand a
command's rule lists is the same in two states that agree on them. -/

namespace Sys2Proof.Machine

/-! ### The operands of the frame -/

theorem State.AgreeOnFrame.fits_iff {s u : State} (h : s.AgreeOnFrame u) : s.Fits ↔ u.Fits := by
  rw [State.Fits, State.Fits, h.plen, h.cfg]

theorem State.AgreeOnFrame.ck_body {s u : State} (h : s.AgreeOnFrame u) : s.ck s.body = u.ck u.body := by
  rw [State.body_congr h, State.ck_congr h.alg]

theorem State.AgreeOnFrame.envelope {s u : State} (h : s.AgreeOnFrame u) (hm : s.AgreeOnMarkers u) (c : Word) :
    s.envelope c = u.envelope c := by
  rw [State.envelope, State.envelope, State.body_congr h, hm.startMarker, hm.endMarker]

/-- ENCODE and ENCODE_KEEP write the same envelope of the same frame between the same markers. -/
theorem State.AgreeOnFrame.encoded {s u : State} (h : s.AgreeOnFrame u) (hm : s.AgreeOnMarkers u) (hs : s.Fits)
    (c : Word) (ok : Bool) : (s.encoded c ok).envLen = (u.encoded c ok).envLen
      ∧ ∀ a, a < (s.encoded c ok).envLen.toNat → (s.encoded c ok).envByte a = (u.encoded c ok).envByte a := by
  have hload : (s.encoded c ok).envRead 0 (s.envelope c).length = (u.encoded c ok).envRead 0 (s.envelope c).length :=
    calc (s.encoded c ok).envRead 0 (s.envelope c).length = s.envelope c := State.envRead_emit hs c
      _ = u.envelope c := h.envelope hm c
      _ = (u.encoded c ok).envRead 0 (u.envelope c).length := (State.envRead_emit (h.fits_iff.1 hs) c).symm
      _ = (u.encoded c ok).envRead 0 (s.envelope c).length := by rw [h.envelope hm c]
  refine ⟨congrArg (fun p : Half => BitVec.ofNat 16 (Config.envOverhead + p.toNat)) h.plen, fun a ha => ?_⟩
  have hlen : (s.encoded c ok).envLen.toNat = 44 + s.plen.toNat := State.toNat_envLen_emit hs c
  exact Memory.loadByte_eq_of_load_eq hload (Nat.zero_le a) (by rw [State.length_envelope]; omega)

theorem encode_reads_only_operands {s u : State} (h : s.AgreeOnFrame u) (hm : s.AgreeOnMarkers u) :
    ∃ t v, exec .encode s = .next t ∧ exec .encode u = .next v ∧ t.err = v.err ∧ t.integrityOk = v.integrityOk
      ∧ (t.err = 0 → t.envLen = v.envLen ∧ t.fcs = v.fcs ∧ t.chkResult = v.chkResult
          ∧ ∀ a, a < t.envLen.toNat → t.envByte a = v.envByte a) := by
  by_cases hs : s.Fits
  · obtain ⟨hlen, hbytes⟩ := h.encoded hm hs (s.ck s.body) true
    refine ⟨_, u.encoded (s.ck s.body) true, execEncode_eq_encoded hs, ?_, rfl, rfl,
      fun _ => ⟨hlen, rfl, h.ck_body, hbytes⟩⟩
    rw [execEncode_eq_encoded (h.fits_iff.1 hs), h.ck_body]
  · exact ⟨_, _, execEncode_of_not_fits hs, execEncode_of_not_fits (mt h.fits_iff.2 hs), rfl, rfl,
      by simp [ErrorCode.code]⟩

theorem encodeKeep_reads_only_operands {s u : State} (h : s.AgreeOnFrame u) (hm : s.AgreeOnMarkers u)
    (hfcs : s.fcs = u.fcs) : ∃ t v, exec .encodeKeep s = .next t ∧ exec .encodeKeep u = .next v
      ∧ t.err = v.err ∧ t.integrityOk = v.integrityOk
      ∧ (t.err = 0 → t.envLen = v.envLen ∧ t.chkResult = v.chkResult
          ∧ ∀ a, a < t.envLen.toNat → t.envByte a = v.envByte a) := by
  by_cases hs : s.Fits
  · obtain ⟨hlen, hbytes⟩ := h.encoded hm hs s.fcs (decide (s.ck s.body = s.fcs))
    refine ⟨_, u.encoded s.fcs (decide (s.ck s.body = s.fcs)), execEncodeKeep_eq_encoded hs, ?_, rfl, rfl,
      fun _ => ⟨hlen, h.ck_body, hbytes⟩⟩
    rw [execEncodeKeep_eq_encoded (h.fits_iff.1 hs), h.ck_body, hfcs]
  · exact ⟨_, _, execEncodeKeep_of_not_fits hs, execEncodeKeep_of_not_fits (mt h.fits_iff.2 hs), rfl, rfl,
      by simp [ErrorCode.code]⟩

/-- VERIFY reads no envelope byte and no marker (42_checksum.md R89). -/
theorem verify_reads_only_operands {s u : State} (h : s.AgreeOnFrame u) (hfcs : s.fcs = u.fcs) :
    ∃ t v, exec .verify s = .next t ∧ exec .verify u = .next v ∧ t.err = v.err ∧ t.integrityOk = v.integrityOk
      ∧ (t.err = 0 → t.chkResult = v.chkResult) := by
  by_cases hs : s.Fits
  · refine ⟨_, _, execVerify_of_fits hs, execVerify_of_fits (h.fits_iff.1 hs), rfl, ?_, fun _ => h.ck_body⟩
    rw [State.complete_integrityOk, State.complete_integrityOk, h.ck_body, hfcs]
  · exact ⟨_, _, execVerify_of_not_fits hs, execVerify_of_not_fits (mt h.fits_iff.2 hs), rfl, rfl,
      by simp [ErrorCode.code]⟩

/-! ### The operands in ENV_BUF -/

theorem State.AgreeOnEnvelope.envRead {s u : State} (h : s.AgreeOnEnvelope u) {a n : Nat}
    (hn : a + n ≤ s.envLen.toNat) : s.envRead a n = u.envRead a n :=
  Memory.load_congr fun k _ hk => h.env k (by omega)

theorem State.AgreeOnEnvelope.memRead {s u : State} (h : s.AgreeOnEnvelope u) {a n : Nat}
    (hn : a + n ≤ s.envLen.toNat) : s.memRead a n = u.memRead a n :=
  congrArg unBE (h.envRead hn)

/-- DECODE's checks read no byte at or above ENV_LEN: one that would is not reached (41_frame_codec.md R79). -/
theorem State.AgreeOnEnvelope.decodeError {s u : State} (h : s.AgreeOnEnvelope u) (hm : s.AgreeOnMarkers u) :
    s.decodeError = u.decodeError := by
  simp only [State.decodeError, ← h.envLen, ← h.cfg, ← hm.startMarker, ← hm.endMarker]
  refine ite_congr rfl (fun _ => rfl) fun h44 => ?_
  have hprefix : s.prefixLen = u.prefixLen := h.memRead (by omega)
  rw [← h.memRead (a := 0) (n := 4) (by omega), ← hprefix]
  refine ite_congr rfl (fun _ => rfl) fun _ => ite_congr rfl (fun _ => rfl) fun _ =>
    ite_congr rfl (fun _ => rfl) fun hge => ite_congr rfl (fun _ => rfl) fun hle => ?_
  rw [h.memRead (by omega)]

theorem decode_reads_only_operands {s u : State} (h : s.AgreeOnEnvelope u) (hm : s.AgreeOnMarkers u) :
    ∃ t v, exec .decode s = .next t ∧ exec .decode u = .next v ∧ t.err = v.err ∧ t.integrityOk = v.integrityOk
      ∧ (t.err = 0 → t.SameFrame v ∧ t.fcs = v.fcs ∧ t.chkResult = v.chkResult) := by
  have herror := h.decodeError hm
  cases hchecks : s.decodeError with
  | some e =>
    exact ⟨_, _, execDecode_of_error hchecks, execDecode_of_error (herror.symm.trans hchecks), rfl, rfl,
      fun hzero => absurd hzero (State.code_ne_zero_of_decodeError hchecks)⟩
  | none =>
    have hchecks' : u.decodeError = none := herror.symm.trans hchecks
    obtain ⟨hlen, hfits, -, -⟩ := State.decodeError_eq_none.1 hchecks
    obtain ⟨-, hfits', -, -⟩ := State.decodeError_eq_none.1 hchecks'
    have hprefix : s.prefixLen = u.prefixLen := h.memRead (by omega)
    have hchk : s.decoded.chkResult = u.decoded.chkResult := by
      show s.ck (s.envRead 4 (32 + s.prefixLen)) = u.ck (u.envRead 4 (32 + u.prefixLen))
      rw [h.envRead (by omega), State.ck_congr h.alg, hprefix]
    have hfcs : s.decoded.fcs = u.decoded.fcs := by
      rw [s.fcs_decoded, u.fcs_decoded, h.memRead (by omega), hprefix]
    have hbody : s.envRead 4 u.decoded.body.length = u.decoded.body := by
      rw [h.envRead (by rw [State.length_body, u.toNat_plen_decoded]; omega)]
      exact State.envRead_body_decoded hfits'
    refine ⟨_, _, execDecode_eq_decoded hchecks, execDecode_eq_decoded hchecks',
      s.err_decoded.trans u.err_decoded.symm, ?_, fun _ =>
      ⟨State.sameFrame_of_envRead_body (State.envRead_body_decoded hfits) hbody, hfcs, hchk⟩⟩
    rw [s.integrityOk_decoded, u.integrityOk_decoded, hfcs, hchk]

theorem State.AgreeOnEnvelope.goodRange {s u : State} (h : s.AgreeOnEnvelope u) (hstart : s.skipStart = u.skipStart)
    (hend : s.skipEnd = u.skipEnd) : s.goodRange = u.goodRange := by
  rw [State.goodRange, State.goodRange, h.envLen, h.cfg, hstart, hend]

theorem checksum_reads_only_operands {s u : State} (h : s.AgreeOnEnvelope u) (hstart : s.skipStart = u.skipStart)
    (hend : s.skipEnd = u.skipEnd) : ∃ t v, exec .checksum s = .next t ∧ exec .checksum u = .next v
      ∧ t.err = v.err ∧ (t.err = 0 → t.chkResult = v.chkResult) := by
  have hrange := h.goodRange hstart hend
  cases hgood : s.goodRange with
  | false =>
    exact ⟨_, _, execChecksum_of_bad hgood, execChecksum_of_bad (hrange.symm.trans hgood), rfl,
      by simp [ErrorCode.code]⟩
  | true =>
    obtain ⟨-, hskips⟩ := State.goodRange_iff.1 hgood
    refine ⟨_, _, execChecksum_of_good hgood, execChecksum_of_good (hrange.symm.trans hgood), rfl, fun _ => ?_⟩
    rw [State.complete_chkResult, State.complete_chkResult, ← hstart, ← hend, ← h.envLen, h.envRead (by omega)]
    exact State.ck_congr h.alg _

/-- Settles O15, command by command. -/
theorem commandsReadOnlyTheirOperands : Obligations.CommandsReadOnlyTheirOperands := fun _ _ =>
  ⟨encode_reads_only_operands, encodeKeep_reads_only_operands, decode_reads_only_operands, verify_reads_only_operands,
    checksum_reads_only_operands⟩

end Sys2Proof.Machine
end

section
/-! PROOFS. The two checksum algorithms (42_checksum.md R83 to R85): OAAT as a hash on numbers, and XOR8 as a fold of
bytes. -/

namespace Sys2Proof.Machine

/-! ### OAAT -/

/-- h + (h << k) in arithmetic modulo 2^32 (42_checksum.md R83). -/
theorem toNat_add_shiftLeft (h : Word) (k : Nat) : (h + h <<< k).toNat = (h.toNat + h.toNat * 2 ^ k) % 2 ^ 32 := by
  rw [BitVec.toNat_add, BitVec.toNat_shiftLeft, Nat.add_mod_mod, Nat.shiftLeft_eq]

theorem toNat_xor_shiftRight (h : Word) (k : Nat) : (h ^^^ h >>> k).toNat = h.toNat ^^^ h.toNat / 2 ^ k := by
  rw [BitVec.toNat_xor, BitVec.toNat_ushiftRight, Nat.shiftRight_eq_div_pow]

theorem toNat_oaatRound (h : Word) (b : Byte) : (oaatRound h b).toNat = oaatRoundNat h.toNat b.toNat := by
  have hbyte : (h + b.setWidth 32).toNat = (h.toNat + b.toNat) % 2 ^ 32 := by
    rw [BitVec.toNat_add, BitVec.toNat_setWidth, Nat.add_mod_mod]
  rw [oaatRound, oaatRoundNat, toNat_xor_shiftRight, toNat_add_shiftLeft, hbyte]

/-- The model's hash as the numbers' hash: the rounds correspond one by one, and so does the final mixing. -/
theorem toNat_oaat (bs : List Byte) : (oaat bs).toNat = oaatNat bs := by
  have hrounds : bs.foldl (fun h b => oaatRoundNat h b.toNat) 0 = (bs.foldl oaatRound 0).toNat :=
    List.foldl_hom BitVec.toNat (init := (0 : Word)) fun h b => (toNat_oaatRound h b).symm
  rw [oaat, oaatFinish, oaatNat, hrounds, toNat_add_shiftLeft, toNat_xor_shiftRight, toNat_add_shiftLeft]

/-- A zero byte leaves the hash state at its start value (42_checksum.md R84). -/
theorem foldl_oaatRound_zeros (n : Nat) : (List.replicate n (0 : Byte)).foldl oaatRound 0 = 0 := by
  induction n with
  | zero => rfl
  | succ n ih =>
    have hround : oaatRound 0 0 = 0 := by decide
    rw [List.replicate_succ, List.foldl_cons, hround, ih]

theorem oaat_zeros_append (n : Nat) (bs : List Byte) : oaat (List.replicate n 0 ++ bs) = oaat bs := by
  rw [oaat, List.foldl_append, foldl_oaatRound_zeros, oaat]

theorem oaat_nil : oaat [] = 0 := by decide

theorem oaat_zeros (n : Nat) : oaat (List.replicate n 0) = 0 := by
  have h := oaat_zeros_append n []
  rwa [List.append_nil, oaat_nil] at h

/-- Settles O19: round by round, and zero bytes by induction on their number. -/
theorem oaatIsTheHashModuloTwoToThe32 : Obligations.OaatIsTheHashModuloTwoToThe32 :=
  ⟨toNat_oaat, oaat_zeros_append, oaat_zeros, by decide, by decide⟩

/-! ### XOR8 -/

theorem xor8_nil : xor8 [] = 0 := rfl

theorem xor8_append_singleton (bs : List Byte) (b : Byte) : xor8 (bs ++ [b]) = xor8 bs ^^^ b.setWidth 32 := by
  rw [xor8, List.foldl_append, List.foldl_cons, List.foldl_nil, xor8]

/-- XOR8 is a byte: the bytes may be folded as bytes, and the result widened (42_checksum.md R85). -/
theorem xor8_eq_setWidth (bs : List Byte) : xor8 bs = (bs.foldl (· ^^^ ·) 0).setWidth 32 :=
  List.foldl_hom (BitVec.setWidth 32) (g₁ := (· ^^^ ·)) (init := (0 : Byte)) fun _ _ => BitVec.setWidth_xor.symm

theorem xor8_le (bs : List Byte) : (xor8 bs).toNat ≤ 0xFF := by
  have hlt : (bs.foldl (· ^^^ ·) (0 : Byte)).toNat < 2 ^ 8 := BitVec.isLt _
  rw [xor8_eq_setWidth, BitVec.toNat_setWidth]
  omega

theorem xor8_perm {bs cs : List Byte} (h : bs.Perm cs) : xor8 bs = xor8 cs := by
  rw [xor8_eq_setWidth, xor8_eq_setWidth, h.foldl_eq]

theorem xor8_cons_cons_self (b : Byte) (bs : List Byte) : xor8 (b :: b :: bs) = xor8 bs := by
  have hpair : (0 : Byte) ^^^ b ^^^ b = 0 := by rw [BitVec.xor_assoc, BitVec.xor_self]; rfl
  rw [xor8_eq_setWidth, xor8_eq_setWidth, List.foldl_cons, List.foldl_cons, hpair]

/-- Settles O20: exclusive or of bytes is commutative, associative and its own inverse. -/
theorem xor8FoldsBytesInAnyOrder : Obligations.Xor8FoldsBytesInAnyOrder :=
  ⟨xor8_nil, xor8_append_singleton, xor8_le, fun _ _ => xor8_perm, fun bs b => xor8_cons_cons_self b bs, by decide⟩

end Sys2Proof.Machine
end

section
/-! PROOFS. VERIFY and CHECKSUM as exact next states, and what they say after ENCODE, ENCODE_KEEP and DECODE
(42_checksum.md R86 to R91). -/

namespace Sys2Proof.Machine

/-! ### CK -/

theorem State.ck_of_xor8 {s : State} (h : s.alg = true) (bs : List Byte) : s.ck bs = xor8 bs := if_pos h

theorem State.ck_of_oaat {s : State} (h : s.alg = false) (bs : List Byte) : s.ck bs = oaat bs := by
  rw [State.ck, h]
  rfl

/-- CK of no bytes is 0 under either algorithm (42_checksum.md R84, R85). -/
theorem State.ck_nil (s : State) : s.ck [] = 0 := by
  cases halg : s.alg with
  | true => rw [State.ck_of_xor8 halg, xor8_nil]
  | false => rw [State.ck_of_oaat halg, oaat_nil]

/-! ### After ENCODE -/

/-- ENCODE and ENCODE_KEEP keep the frame and CONFIG.ALG, so they keep CK(Body()). -/
theorem State.ck_body_encoded (s : State) (c : Word) (ok : Bool) :
    (s.encoded c ok).ck (s.encoded c ok).body = s.ck s.body := rfl

/-- An ENCODE that leaves no error found the payload within the capacity. -/
theorem execEncode_ok {s t : State} (h : exec .encode s = .next t) (herr : t.err = 0) :
    s.Fits ∧ t = s.encoded (s.ck s.body) true := by
  cases executed_iff.2 h with
  | encode hfits => exact ⟨hfits, rfl⟩
  | oversize _ _ => simp [ErrorCode.code] at herr

/-! ### VERIFY -/

/-- VERIFY reports whether FCS is CK(Body()), and leaves CK(Body()) in CHK_RESULT (42_checksum.md R89). -/
theorem State.Fits.exec_verify {s : State} (h : s.Fits) : ∃ t, exec .verify s = .next t
    ∧ t.integrityOk = decide (s.ck s.body = s.fcs) ∧ t.chkResult = s.ck s.body :=
  ⟨_, execVerify_of_fits h, rfl, rfl⟩

/-- Settles O16: ENCODE leaves CK(Body()) in FCS, and DECODE compares the same two codes as VERIFY does. -/
theorem verifyComparesTheStoredCode : Obligations.VerifyComparesTheStoredCode := by
  refine ⟨rfl, fun s => ⟨fun h => execVerify_of_not_fits (Nat.not_le.2 h), execVerify_of_fits, fun t ht herr => ?_,
    fun t ht herr => ?_⟩⟩
  · obtain ⟨hfits, rfl⟩ := execEncode_ok ht herr
    have hfits' : (s.encoded (s.ck s.body) true).Fits := hfits
    obtain ⟨u, hu, hok, -⟩ := hfits'.exec_verify
    exact ⟨u, hu, hok.trans (decide_eq_true (s.ck_body_encoded _ _))⟩
  · obtain ⟨hholds, -, -, hok⟩ := execDecode_holdsItsEnvelope ht herr
    obtain ⟨hchecks, rfl⟩ := execDecode_ok ht herr
    obtain ⟨-, hprefix, -, -⟩ := State.decodeError_eq_none.1 hchecks
    obtain ⟨u, hu, huok, huchk⟩ := hholds.fits.exec_verify
    exact ⟨u, hu, huok.trans hok.symm, huchk.trans (State.chkResult_decoded hprefix).symm⟩

/-- Settles O18: both commands compare the code with CK(Body()), DECODE after reading it from the trailer. -/
theorem everyWrongTrailerIsReported : Obligations.EveryWrongTrailerIsReported := by
  intro s f hfits
  have hfits' : ({ s with fcs := f } : State).Fits := hfits
  have hreport : decide (s.ck s.body = f) = true ↔ f = s.ck s.body := decide_eq_true_iff.trans eq_comm
  constructor
  · obtain ⟨t, ht, hok, -⟩ := hfits'.exec_verify
    exact ⟨t, ht, by rw [hok]; exact hreport⟩
  · obtain ⟨u, hu, herr, hok, -, -⟩ :=
      (State.holdsItsEnvelope_encoded hfits' f (decide (s.ck s.body = f))).exec_decode
    exact ⟨_, u, execEncodeKeep_eq_encoded hfits', hu, herr, by rw [hok]; exact hreport⟩

/-! ### CHECKSUM -/

/-- A load is the same bytes of a load around it. -/
theorem Memory.take_drop_load (cap : Nat) (m : Memory) (i : Nat) {a k n : Nat} (h : a + k ≤ n) :
    ((Memory.load cap m i n).drop a).take k = Memory.load cap m (i + a) k := by
  obtain ⟨r, rfl⟩ := Nat.exists_eq_add_of_le h
  rw [Nat.add_assoc, Memory.load_append, List.drop_left' (Memory.length_load ..), Memory.load_append,
    List.take_left' (Memory.length_load ..)]

/-- The range of CHECKSUM as the skips cut it from env[0..n) (42_checksum.md R88). -/
theorem State.take_drop_envRead (s : State) {a e n : Nat} (h : a + e ≤ n) :
    ((s.envRead 0 n).drop a).take (n - e - a) = s.envRead a (n - e - a) := by
  have hslice := Memory.take_drop_load s.cfg.maxEnvelope s.env 0 (show a + (n - e - a) ≤ n by omega)
  rwa [Nat.zero_add] at hslice

theorem State.goodRange_eq_false {s : State} (h : s.envLen.toNat > s.cfg.maxPayload + 44
    ∨ s.skipStart.toNat + s.skipEnd.toNat > s.envLen.toNat) : s.goodRange = false := by
  rw [← Bool.not_eq_true, State.goodRange_iff]
  omega

/-- Skips 4 and 8 cut the body from the envelope that ENV_BUF holds (42_checksum.md R88, 41_frame_codec.md R75). -/
theorem State.HoldsItsEnvelope.exec_checksum {t : State} (h : t.HoldsItsEnvelope) (hstart : t.skipStart = 4)
    (hend : t.skipEnd = 8) : ∃ u, exec .checksum t = .next u ∧ u.err = 0 ∧ u.chkResult = t.ck t.body := by
  have hstart' : t.skipStart.toNat = 4 := congrArg BitVec.toNat hstart
  have hend' : t.skipEnd.toNat = 8 := congrArg BitVec.toNat hend
  have hfits : t.plen.toNat ≤ t.cfg.maxPayload := h.fits
  have hgood : t.goodRange = true := by
    rw [State.goodRange_iff, h.envLen, hstart', hend']
    omega
  have hrange : t.envLen.toNat - t.skipEnd.toNat - t.skipStart.toNat = 32 + t.plen.toNat := by
    rw [h.envLen, hstart', hend']
    omega
  obtain ⟨-, hbody, -, -⟩ := State.envRead_envelope h.env
  refine ⟨_, execChecksum_of_good hgood, rfl, ?_⟩
  rw [State.complete_chkResult, hrange, hstart', hbody]

/-- Settles O17: a bad range on either bound, the bytes between the skips, an empty range, and the body as the range
that skips 4 and 8 leave. -/
theorem checksumCoversTheRangeBetweenTheSkips : Obligations.ChecksumCoversTheRangeBetweenTheSkips := by
  refine ⟨rfl, fun s bs => ⟨fun h => State.ck_of_xor8 h bs, fun h => State.ck_of_oaat h bs⟩, fun s =>
    ⟨fun h => execChecksum_of_bad (State.goodRange_eq_false h), fun hlen hskips => ?_, fun hlen hskips => ?_,
      fun hstart hend t ht herr => ?_⟩⟩
  · rw [State.take_drop_envRead s hskips]
    exact execChecksum_of_good (State.goodRange_iff.2 ⟨hlen, hskips⟩)
  · refine ⟨_, execChecksum_of_good (State.goodRange_iff.2 ⟨hlen, hskips.le⟩), ?_⟩
    have hempty : s.envLen.toNat - s.skipEnd.toNat - s.skipStart.toNat = 0 := by omega
    rw [State.complete_chkResult, hempty]
    exact s.ck_nil
  · obtain ⟨hfits, rfl⟩ := execEncode_ok ht herr
    obtain ⟨u, hu, huerr, hchk⟩ := (State.holdsItsEnvelope_encoded hfits _ true).exec_checksum hstart hend
    exact ⟨u, hu, huerr, hchk.trans (s.ck_body_encoded _ _)⟩

end Sys2Proof.Machine
end

section
/-! PROOFS. The control commands (43_control.md R93 to R95, R97): NOP and the reserved words write the Complete fields
alone, CLEAR leaves a frame of zeros, and CONFIG and the markers are the host's. -/

namespace Sys2Proof.Machine

/-! ### NOP and the reserved words -/

/-- Settles O6: NOP is `Complete(OK)`, and its issue is a write to CMD. -/
theorem nopCompletesWithoutEffect : Obligations.NopCompletesWithoutEffect := by
  refine ⟨rfl, fun s => ⟨rfl, fun t ht => ?_, fun hb h => ⟨_, step_write_cmd h hb, rfl, rfl⟩⟩⟩
  obtain rfl : s.complete .ok = t := Host.Outcome.next.inj ht
  exact Bool.and_true s.ie

/-- Settles O7: a word with a reserved field is at least 7, so it decodes to a reserved command. -/
theorem reservedWordCompletesWithBadCommand : Obligations.ReservedWordCompletesWithBadCommand := by
  refine fun w s => ⟨rfl, fun hfields => ?_⟩
  have hw : 7 ≤ w.toNat := by omega
  rw [decodeWord_of_seven_le hw]
  rfl

/-! ### CLEAR -/

/-- A buffer after zeros are stored over its whole capacity. -/
theorem Memory.read_store_zeros (cap : Nat) (m : Memory) (a : Nat) :
    Memory.read (Memory.store cap m 0 (List.replicate cap 0)) a = if a < cap then 0 else Memory.read m a := by
  rw [Memory.read_store, List.length_replicate]
  by_cases h : a < cap <;> simp [h]

/-- Body() after CLEAR: each field's bytes are 0, and there is no payload (43_control.md R94). -/
theorem execClear_body {s t : State} (h : exec .clear s = .next t) : t.body = List.replicate 32 0 := by
  obtain rfl := Host.Outcome.next.inj h
  show fcWire 0 ++ be 2 0 ++ StationId.zero.bytes ++ StationId.zero.bytes ++ StationId.zero.bytes ++ be 2 0
    ++ StationId.zero.bytes ++ be 2 0 ++ [] = List.replicate 32 0
  decide

/-- ENCODE of a frame of zeros without payload (43_control.md R94). -/
theorem execEncode_of_zeros {s : State} (hplen : s.plen = 0) (hbody : s.body = List.replicate 32 0) :
    ∃ u, exec .encode s = .next u ∧ u.envLen = 44 ∧ u.envRead 4 32 = List.replicate 32 0
      ∧ (s.alg = false → u.fcs = 0) := by
  have hlen : s.plen.toNat = 0 := congrArg BitVec.toNat hplen
  have hfits : s.Fits := hlen.trans_le (Nat.zero_le _)
  have henvLen : (s.emit (s.ck s.body)).envLen.toNat = 44 + s.plen.toNat := State.toNat_envLen_emit hfits _
  obtain ⟨-, hbytes, -, -⟩ := State.envRead_envelope (State.envRead_emit hfits (s.ck s.body))
  rw [hlen] at henvLen hbytes
  refine ⟨_, execEncode_of_fits hfits, BitVec.eq_of_toNat_eq henvLen, hbytes.trans hbody, fun halg => ?_⟩
  calc s.ck s.body = oaat (List.replicate 32 0) := by rw [State.ck_of_oaat halg, hbody]
    _ = 0 := oaat_zeros 32

/-- Settles O8: the stores of zeros cover both capacities, and ENCODE finds a frame of zeros. -/
theorem clearZeroesTheFrameStateAndBuffers : Obligations.ClearZeroesTheFrameStateAndBuffers := by
  refine ⟨rfl, fun s => ⟨_, _, rfl, Memory.read_store_zeros _ _, Memory.read_store_zeros _ _, fun t ht => ?_⟩⟩
  have hbody := execClear_body ht
  obtain rfl := Host.Outcome.next.inj ht
  exact ⟨hbody, execEncode_of_zeros rfl hbody⟩

/-! ### CONFIG and the markers -/

/-- Two states with the same parameters, CONFIG and markers. -/
structure State.SameConfig (s t : State) : Prop where
  cfg : t.cfg = s.cfg
  alg : t.alg = s.alg
  ie : t.ie = s.ie
  startMarker : t.startMarker = s.startMarker
  endMarker : t.endMarker = s.endMarker

/-- No command writes the parameters, CONFIG or a marker (43_control.md R97). -/
theorem exec_sameConfig {s t : State} {i : Instr} (h : exec i s = .next t) : s.SameConfig t := by
  obtain ⟨u, hu, -, -, -, halg, hie, hstart, hend, hcfg, -⟩ := exec_spec i s
  obtain rfl : u = t := Host.Outcome.next.inj (hu.symm.trans h)
  exact ⟨hcfg, halg, hie, hstart, hend⟩

/-- Only a reset and an idle write of the host can change CONFIG or a marker. -/
theorem step_config_cases {s t : State} (ht : step s = .next t) :
    s.SameConfig t
      ∨ (s.HostNext .reset ∧ t.cfg = s.cfg)
      ∨ ∃ off v, s.HostNext (.write off v) ∧ s.busy = false ∧ t = s.afterMove.writeTarget v (Target.ofOffset off) := by
  rcases step_cases s with ⟨w, -, -, hexec⟩ | hidle | ⟨m, hm⟩
  · obtain ⟨hcfg, halg, hie, hstart, hend⟩ := exec_sameConfig (hexec.symm.trans ht)
    exact .inl ⟨hcfg, halg, hie, hstart, hend⟩
  · obtain rfl : s.takeTurn = t := Host.Outcome.next.inj (hidle.symm.trans ht)
    exact .inl ⟨rfl, rfl, rfl, rfl, rfl⟩
  · rcases hostMove_cases hm ht with ⟨off, x, d, -, rfl⟩ | ⟨sc, -, rfl⟩ | ⟨rfl, rfl⟩ | ⟨v, -, rfl⟩
      | ⟨off, v, -, -, -, rfl⟩ | ⟨off, v, rfl, hb, -, rfl⟩
    · exact .inl ⟨rfl, rfl, rfl, rfl, rfl⟩
    · exact .inl ⟨rfl, rfl, rfl, rfl, rfl⟩
    · exact .inr (.inl ⟨hm, rfl⟩)
    · exact .inl ⟨rfl, rfl, rfl, rfl, rfl⟩
    · exact .inl ⟨rfl, rfl, rfl, rfl, rfl⟩
    · exact .inr (.inr ⟨off, v, hm, hb, rfl⟩)

/-- A write reaches CONFIG or a marker only where its target is that register (10_state.md R19, R22). -/
theorem State.writeTarget_keeps_config_and_markers (s : State) (v : Word) (T : Target) :
    (T ≠ .reg .config → (s.writeTarget v T).alg = s.alg ∧ (s.writeTarget v T).ie = s.ie)
      ∧ (T ≠ .reg .startMarker → (s.writeTarget v T).startMarker = s.startMarker)
      ∧ (T ≠ .reg .endMarker → (s.writeTarget v T).endMarker = s.endMarker) := by
  cases T with
  | reg r =>
    cases r with
    | config => exact ⟨absurd rfl, fun _ => rfl, fun _ => rfl⟩
    | startMarker => exact ⟨fun _ => ⟨rfl, rfl⟩, absurd rfl, fun _ => rfl⟩
    | endMarker => exact ⟨fun _ => ⟨rfl, rfl⟩, fun _ => rfl, absurd rfl⟩
    | _ => exact ⟨fun _ => ⟨rfl, rfl⟩, fun _ => rfl, fun _ => rfl⟩
  | _ => exact ⟨fun _ => ⟨rfl, rfl⟩, fun _ => rfl, fun _ => rfl⟩

/-- Each register stands at one offset of the map (10_state.md R16). -/
theorem Reg.eq_of_mem_map {p q : Nat × Reg} (hp : p ∈ Reg.map) (hq : q ∈ Reg.map) (h : p.2 = q.2) : p = q :=
  (show ∀ p ∈ Reg.map, ∀ q ∈ Reg.map, p.2 = q.2 → p = q by decide) p hp q hq h

/-- A write that breaks what only a write to register `r` can break is a write to the offset of `r`. -/
theorem State.HostNext.write_of_changed {s : State} {off off' : Nat} {v : Word} {r : Reg} {kept : Prop}
    (h : s.HostNext (.write off v)) (hr : (off', r) ∈ Reg.map) (hkept : Target.ofOffset off ≠ .reg r → kept)
    (hchanged : ¬kept) : ∃ v, s.HostNext (.write off' v) := by
  have hT : Target.ofOffset off = .reg r := not_not.1 (mt hkept hchanged)
  obtain rfl : off = off' := congrArg Prod.fst (Reg.eq_of_mem_map (Target.mem_map_of_ofOffset hT) hr rfl)
  exact ⟨v, h⟩

/-- Settles O45: a step keeps the parameters, CONFIG and the markers, or it is a reset, or an idle write, which
reaches what its offset selects. -/
theorem onlyTheHostWritesConfigAndMarkers : Obligations.OnlyTheHostWritesConfigAndMarkers := by
  intro s t ht
  rcases step_config_cases ht with ⟨hcfg, halg, hie, hstart, hend⟩ | ⟨hreset, hcfg⟩ | ⟨off, v, hm, hb, rfl⟩
  · exact ⟨hcfg, fun _ => ⟨fun h => absurd ⟨halg, hie⟩ (not_and_or.2 h), fun h => absurd hstart h,
      fun h => absurd hend h⟩⟩
  · exact ⟨hcfg, fun h => absurd hreset h⟩
  · obtain ⟨-, hcfg, -⟩ := s.afterMove.writeTarget_frame v (Target.ofOffset off)
    obtain ⟨hconfig, hstart, hend⟩ := s.afterMove.writeTarget_keeps_config_and_markers v (Target.ofOffset off)
    exact ⟨hcfg, fun _ => ⟨fun h => ⟨hb, hm.write_of_changed (by decide) hconfig (not_and_or.2 h)⟩,
      fun h => ⟨hb, hm.write_of_changed (by decide) hstart h⟩, fun h => ⟨hb, hm.write_of_changed (by decide) hend h⟩⟩⟩

end Sys2Proof.Machine
end

section
/-! PROOFS. How a command ends and what it reports (10_state.md R38, 60_exceptions.md R98 to R103, R107): the error
codes, the end of a pending command, and the interrupt output. -/

namespace Sys2Proof.Machine

/-! ### Completion -/

/-- A failing command writes INTEGRITY_OK and the Complete fields at most (60_exceptions.md R102). -/
theorem Executed.eq_of_err_ne_zero {s t : State} {i : Instr} (h : Executed s i t) (herr : t.err ≠ 0) :
    t = { s with integrityOk := t.integrityOk, err := t.err, done := true, pend := none } := by
  cases h with
  | nop | encode h | encodeKeep h | verify h | decode h | checksum h | clear => exact absurd rfl herr
  | oversize hi h | badEnvelope h | badRange h | reserved w => rfl

/-- Settles O4, by the ways a command can end. -/
theorem everyCommandEndsInComplete : Obligations.EveryCommandEndsInComplete := by
  intro i s
  obtain ⟨t, ht, hpend, hdone, -⟩ := exec_spec i s
  have hex : Executed s i t := executed_iff.2 ht
  obtain ⟨e, he⟩ := hex.err_eq
  exact ⟨t, ht, hpend, State.busy_eq_false hpend, hdone, ⟨e, he⟩, he ▸ e.code_le, hex.eq_of_err_ne_zero⟩

/-! ### The error a command reports -/

/-- DECODE reports the first of its checks that fails (41_frame_codec.md R79). -/
theorem exec_decode_err (s : State) : ∃ t, exec .decode s = .next t ∧ t.err.toNat = s.decodeErrOwed := by
  cases h : s.decodeError with
  | none => exact ⟨s.decoded, execDecode_eq_decoded h, (State.decodeErrOwed_of_none h).symm⟩
  | some e => exact ⟨s.failWith e, execDecode_of_error h, (State.decodeErrOwed_of_some h).1.symm⟩

/-- CHECKSUM reports BAD_RANGE on a range outside the buffer's valid bytes alone (42_checksum.md R88). -/
theorem exec_checksum_err (s : State) : ∃ t, exec .checksum s = .next t ∧ t.err.toNat =
    if s.envLen.toNat > s.cfg.maxPayload + 44 ∨ s.skipStart.toNat + s.skipEnd.toNat > s.envLen.toNat then 5 else 0 := by
  split
  · next hbad => exact ⟨_, execChecksum_of_bad (State.goodRange_eq_false hbad), rfl⟩
  · next hgood => exact ⟨_, execChecksum_of_good (State.goodRange_iff.2 (by omega)), rfl⟩

/-- The commands that read the frame report an oversize payload alone (41_frame_codec.md R77, 42_checksum.md R89). -/
theorem Executed.err_of_reads_frame {s t : State} {i : Instr} (h : Executed s i t)
    (hi : i ∈ [Instr.encode, Instr.encodeKeep, Instr.verify]) :
    t.err.toNat = if s.plen.toNat > s.cfg.maxPayload then 3 else 0 := by
  cases h with
  | encode hfits | encodeKeep hfits | verify hfits => exact (if_neg (Nat.not_lt.2 hfits)).symm
  | oversize _ hfits => exact (if_pos (Nat.not_le.1 hfits)).symm
  | nop | decode _ | badEnvelope _ | checksum _ | badRange _ | clear | reserved _ => simp at hi

/-- Settles O5, command by command. -/
theorem commandsReportTheFirstErrorThatApplies : Obligations.CommandsReportTheFirstErrorThatApplies := by
  refine fun s => ⟨exec_decode_err s, exec_checksum_err s, fun i hi => ?_, fun w hw => ?_, ?_⟩
  · obtain ⟨t, ht⟩ := exists_executed i s
    exact ⟨t, ht.exec_eq, ht.err_of_reads_frame hi⟩
  · rw [decodeWord_of_seven_le hw]
    exact ⟨s.complete .badCommand, rfl, rfl⟩
  · exact List.forall_mem_cons.2 ⟨⟨_, Executed.nop.exec_eq, rfl⟩,
      List.forall_mem_singleton.2 ⟨_, Executed.clear.exec_eq, rfl⟩⟩

/-! ### The end of a pending command -/

/-- While BUSY = 1 a move of the host other than reset keeps PEND (60_exceptions.md R107). -/
theorem hostMove_pend_busy {s t : State} {m : HostMove} (hm : s.HostNext m) (ht : step s = .next t)
    (hb : s.busy = true) (hreset : m ≠ .reset) : t.pend = s.pend := by
  rcases hostMove_cases hm ht with ⟨off, x, d, -, rfl⟩ | ⟨sc, -, rfl⟩ | ⟨rfl, -⟩ | ⟨v, -, rfl⟩
    | ⟨off, v, -, -, -, rfl⟩ | ⟨off, v, -, hidle, -, -⟩
  · rfl
  · rfl
  · exact absurd rfl hreset
  · rfl
  · rfl
  · simp [hb] at hidle

theorem step_reset {s : State} (h : s.HostNext .reset) : step s = .next s.afterMove.assertReset :=
  step_of_hostNext h

/-- Settles O43, by the kinds of step. -/
theorem onlyTheEngineOrResetEndsACommand : Obligations.OnlyTheEngineOrResetEndsACommand := by
  intro s t w hpend ht
  rcases step_cases s with ⟨w', hturn, -, hexec⟩ | hidle | ⟨m, hm⟩
  · obtain ⟨u, hu, hnone, hdone, -⟩ := exec_spec (decodeWord w') s.takeTurn
    obtain rfl : u = t := Host.Outcome.next.inj ((hexec.trans hu).symm.trans ht)
    exact .inl ⟨hturn, hnone, hdone⟩
  · obtain rfl : s.takeTurn = t := Host.Outcome.next.inj (hidle.symm.trans ht)
    exact .inr (.inr hpend)
  · by_cases hreset : m = .reset
    · subst hreset
      obtain rfl : s.afterMove.assertReset = t := Host.Outcome.next.inj ((step_reset hm).symm.trans ht)
      exact .inr (.inl ⟨hm, rfl, rfl⟩)
    · exact .inr (.inr ((hostMove_pend_busy hm ht (by simp [State.busy, hpend]) hreset).trans hpend))

/-! ### The interrupt output -/

/-- The interrupt is off where DONE is clear (60_exceptions.md R103). -/
theorem State.irq_of_done_eq_false {s : State} (h : s.done = false) : s.irq = false := by
  rw [State.irq, h, Bool.and_false]

/-- After a command DONE is set, so the interrupt is CONFIG.IE. -/
theorem exec_irq {s t : State} {i : Instr} (h : exec i s = .next t) : t.irq = s.ie := by
  obtain ⟨u, hu, -, hdone, -, -, hie, -⟩ := exec_spec i s
  obtain rfl : u = t := Host.Outcome.next.inj (hu.symm.trans h)
  rw [State.irq, hdone, hie, Bool.and_true]

theorem State.writeStatus_done_of_bit {v : Word} (s : State) (h : v.getLsbD 1 = true) :
    (s.writeStatus v).done = false := by
  simp [h]

theorem step_write_config {s : State} {v : Word} (h : s.HostNext (.write 0x008 v)) (hb : s.busy = false) :
    step s = .next { s.afterMove with alg := v.getLsbD 0, ie := v.getLsbD 1 } :=
  step_write_idle h (by decide) hb

/-- Only the engine raises DONE: the other writers of DONE clear it (10_state.md R39). -/
theorem step_raises_done {s t : State} (ht : step s = .next t) (hs : s.done = false) (hdone : t.done = true) :
    s.busy = true ∧ s.turn = .engine := by
  have hclears {u : State} (hu : step s = .next u) (hclear : u.done = false) : False := by
    obtain rfl : u = t := Host.Outcome.next.inj (hu.symm.trans ht)
    simp [hdone] at hclear
  have hreset : ¬s.HostNext .reset := fun h => hclears (step_reset h) rfl
  obtain ⟨-, hwriters, -⟩ := statusFlagsHaveOnlyTheirWriters s t ht hreset
  rcases hwriters (by simp [hs, hdone]) with ⟨hb, w, hcmd⟩ | hengine | ⟨v, hstatus, hbit⟩
  · exact (hclears (step_write_cmd hcmd hb) rfl).elim
  · exact hengine
  · exact (hclears (step_write_status hstatus) (State.writeStatus_done_of_bit _ hbit)).elim

/-- Settles O39, by what each move does to IE and DONE. -/
theorem interruptIsEnableAndDone : Obligations.InterruptIsEnableAndDone := by
  refine fun s => ⟨rfl, fun _ => rfl, fun i t => exec_irq, fun v hbit h => ?_, fun w hb h => ?_, fun v hb hbit h => ?_,
    fun h => ?_, fun t => step_raises_done, rfl⟩
  · exact ⟨_, step_write_status h, State.irq_of_done_eq_false (State.writeStatus_done_of_bit _ hbit)⟩
  · exact ⟨_, step_write_cmd h hb, State.irq_of_done_eq_false rfl⟩
  · refine ⟨_, step_write_config h hb, ?_, rfl⟩
    rw [State.irq, hbit, Bool.false_and]
  · exact ⟨_, step_reset h, State.irq_of_done_eq_false rfl⟩

end Sys2Proof.Machine
end

section
/-! PROOFS. Reset (70_reset_and_hazards.md R112, R113): the values it gives, the free contents of the two buffers, and
the machine's invariant after it. -/

namespace Sys2Proof.Machine

/-- The values of R112 in a state made by reset, whatever the buffers hold and whatever the host's side is. -/
theorem State.resetWith_resetValues (c : Config) (pay env : Memory) (ms : List HostMove) (turns : List Agent)
    (words : List Word) (n : Nat) :
    { State.resetWith c pay env with script := ms, schedule := turns, reads := words, draws := n }.ResetValues := by
  constructor <;> rfl

/-- Settles O27, by what `State.resetWith` writes. -/
theorem resetGivesTheStatedValues : Obligations.ResetGivesTheStatedValues :=
  ⟨fun _ h => ⟨_, step_reset h, State.resetWith_resetValues .., rfl⟩,
    State.resetWith_resetValues Config.reference [] [] [] [] [] 0⟩

theorem Memory.loadByte_ofFn {cap i : Nat} (h : i < cap) (f : Nat → Byte) :
    Memory.loadByte cap (Memory.ofFn cap f) i = f i := by
  rw [Memory.loadByte_of_lt h, Memory.read_ofFn, if_pos h]

/-- Settles O28: below the capacity a byte of either buffer is the free value of its index. -/
theorem resetDrawsFreshBufferContents : Obligations.ResetDrawsFreshBufferContents :=
  fun _ h => ⟨_, step_reset h, fun _ hi => Memory.loadByte_ofFn hi _, fun _ hi => Memory.loadByte_ofFn hi _,
    rfl, rfl, rfl, rfl⟩

theorem Memory.canonical_nil (cap : Nat) : Memory.Canonical cap [] :=
  ⟨⟨List.Pairwise.nil, List.forall_mem_nil _⟩, List.forall_mem_nil _⟩

/-- Settles O41: nothing is pending after reset, and both buffers list nothing. -/
theorem resetSatisfiesTheInvariant : Obligations.ResetSatisfiesTheInvariant :=
  State.BuffersCanonical.inv_of_idle ⟨Memory.canonical_nil _, Memory.canonical_nil _⟩ rfl (by decide)

end Sys2Proof.Machine
end

section
/-! PROOFS. The host while BUSY = 1 (70_reset_and_hazards.md R115 to R117): refused writes and HAZ, the reads that keep
their value, and the moves a dutiful host may make. -/

namespace Sys2Proof.Machine

/-! ### Writes -/

/-- HAZ = 1 stays over every move of the host but a write of 1 to its bit and reset (R115). -/
theorem hostMove_keeps_haz {s t : State} {m : HostMove} (hm : s.HostNext m) (ht : step s = .next t)
    (hhaz : s.haz = true) :
    t.haz = true ∨ (∃ v, s.HostNext (.write 0x00C v) ∧ v.getLsbD 2 = true) ∨ s.HostNext .reset := by
  rcases hostMove_cases hm ht with ⟨off, x, d, -, rfl⟩ | ⟨sc, -, rfl⟩ | ⟨rfl, -⟩ | ⟨v, rfl, rfl⟩
    | ⟨off, v, -, -, -, rfl⟩ | ⟨off, v, -, -, hoff, rfl⟩
  · exact .inl hhaz
  · exact .inl hhaz
  · exact .inr (.inr hm)
  · cases hbit : v.getLsbD 2 with
    | true => exact .inr (.inl ⟨v, hm, hbit⟩)
    | false => exact .inl (by rw [State.writeStatus_haz, State.afterMove_haz, hhaz, hbit]; rfl)
  · exact .inl rfl
  · exact .inl ((s.afterMove.writeTarget_haz v (Target.ofOffset_ne_status hoff)).trans hhaz)

/-- Settles O35: the write by its offset, and the later steps by their kind. -/
theorem busyWriteIsRefusedAndSetsHaz : Obligations.BusyWriteIsRefusedAndSetsHaz := by
  refine ⟨fun s off v hb halign hle h => ?_, fun s t hhaz ht => ?_⟩
  · split
    · next ho =>
      subst ho
      exact step_write_status h
    · next ho => exact step_write_busy h (legalOffset_of_le halign hle) hb (Target.ofOffset_ne_status ho)
  · rcases step_cases s with ⟨w, -, -, hexec⟩ | hidle | ⟨m, hm⟩
    · obtain ⟨u, hu, -, -, hkept, -⟩ := exec_spec (decodeWord w) s.takeTurn
      obtain rfl : u = t := Host.Outcome.next.inj ((hexec.trans hu).symm.trans ht)
      exact .inl (hkept.trans hhaz)
    · obtain rfl : s.takeTurn = t := Host.Outcome.next.inj (hidle.symm.trans ht)
      exact .inl hhaz
    · exact hostMove_keeps_haz hm ht hhaz

/-! ### Reads -/

/-- The number a register reads as while BUSY = 1, where R116 gives it a value: STATUS has BUSY = 1, DONE = 0 and
ERR = 0, every other register has the value of an idle read. -/
def State.busyRegValue (s : State) : Reg → Nat
  | .status => 1 + 4 * s.haz.toNat + 8 * s.integrityOk.toNat
  | r => s.regValue r

theorem State.toNat_regWord_busy {s : State} (h : s.Inv) (hb : s.busy = true) (r : Reg) :
    (s.regWord r).toNat = s.busyRegValue r := by
  have hidle := State.toNat_regWord (s := { s with pend := none }) rfl r
  cases r with
  | status =>
    obtain ⟨hdone, herr⟩ := h.pending_clears hb
    refine s.toNat_statusWord.trans ?_
    rw [hb, hdone, herr]
    rfl
  | _ => exact hidle

theorem State.regWord_eq_ofNat_busy {s : State} (h : s.Inv) (hb : s.busy = true) (r : Reg) :
    s.regWord r = BitVec.ofNat 32 (s.busyRegValue r) := by
  rw [← State.toNat_regWord_busy h hb, BitVec.ofNat_toNat, BitVec.setWidth_eq]

/-- A read while BUSY = 1 of a register that R116 gives a value. -/
theorem step_read_stable_reg {s : State} {p : Nat × Reg} (hinv : s.Inv) (hb : s.busy = true) (hp : p ∈ Reg.map)
    (hstable : (Target.reg p.2).stableWhileBusy = true) (h : s.HostNext (.read p.1)) :
    step s = .next { s.afterMove with reads := BitVec.ofNat 32 (s.busyRegValue p.2) :: s.reads } := by
  obtain ⟨hl, hT⟩ := Target.ofOffset_of_mem_map hp
  rw [step_read h hl (.inr (hT ▸ hstable)), hT, ← State.regWord_eq_ofNat_busy hinv hb]
  rfl

/-- The registers from ENV_LEN to ADDR4_1 and both buffer windows are result-bearing (R116). -/
theorem stableWhileBusy_eq_false_of_resultRange {off : Nat} (halign : off % 4 = 0)
    (h : (0x01C ≤ off ∧ off ≤ 0x05C) ∨ (0x1000 ≤ off ∧ off ≤ 0x2FFC)) :
    (Target.ofOffset off).stableWhileBusy = false := by
  have hranges : (0x01C ≤ off ∧ off ≤ 0x05C) ∨ (0x1000 ≤ off ∧ off < 0x2000) ∨ (0x2000 ≤ off ∧ off < 0x3000) := by
    omega
  rcases hranges with hregs | hpay | henv
  · obtain ⟨k, hk, rfl⟩ : ∃ k < 17, off = 0x01C + 4 * k := ⟨(off - 0x01C) / 4, by omega, by omega⟩
    have hresults : ∀ k < 17, (Target.ofOffset (0x01C + 4 * k)).stableWhileBusy = false := by decide
    exact hresults k hk
  · obtain ⟨k, hk, rfl⟩ : ∃ k < 1024, off = 0x1000 + 4 * k := ⟨(off - 0x1000) / 4, by omega, by omega⟩
    rw [Target.ofOffset_payWord hk]
    rfl
  · obtain ⟨k, hk, rfl⟩ : ∃ k < 1024, off = 0x2000 + 4 * k := ⟨(off - 0x2000) / 4, by omega, by omega⟩
    rw [Target.ofOffset_envWord hk]
    rfl

/-- Settles O36, by what the offset selects: a stable register, nothing, or a result. -/
theorem busyReadGivesOnlyTheStableOffsets : Obligations.BusyReadGivesOnlyTheStableOffsets := by
  intro s hinv hb
  refine ⟨fun row hrow h => ?_, fun off halign hoff h => ?_, fun off halign hoff h => ?_⟩
  · have hmap : row ∈ (Reg.map.filter fun p => (Target.reg p.2).stableWhileBusy).map
        fun p => (p.1, s.busyRegValue p.2) := hrow
    obtain ⟨p, hp, rfl⟩ := List.mem_map.1 hmap
    obtain ⟨hp, hstable⟩ := List.mem_filter.1 hp
    exact step_read_stable_reg hinv hb hp hstable h
  · obtain ⟨hl, hT⟩ := ofOffset_of_reservedRange halign hoff
    rw [step_read h hl (.inr (hT ▸ rfl)), hT]
    rfl
  · exact step_read_busy h (legalOffset_of_le halign (by omega)) hb (stableWhileBusy_eq_false_of_resultRange halign hoff)

/-! ### The dutiful host -/

/-- Settles O47, move by move. -/
theorem dutifulHostNeverSetsHaz : Obligations.DutifulHostNeverSetsHaz := by
  intro s m hb h hm
  cases m with
  | read off =>
    obtain ⟨hl, hstable⟩ := Bool.and_eq_true_iff.1 hm
    exact ⟨_, step_read h hl (.inr hstable), id, fun _ => rfl⟩
  | write off v =>
    obtain rfl : off = 0x00C := of_decide_eq_true hm
    exact ⟨_, step_write_status h, fun hhaz => (Bool.and_eq_true_iff.1 hhaz).1, fun _ => rfl⟩
  | wait => exact ⟨_, waitPollsStatusUntilIdle s h, id, fun _ => rfl⟩
  | reset => exact ⟨_, step_reset h, fun hhaz => absurd hhaz Bool.false_ne_true, absurd rfl⟩

end Sys2Proof.Machine
end

section
/-! PROOFS. A write after a write to CMD (93_implementation_defined.md U7): the engine's turn before it or after it. -/

namespace Sys2Proof.Machine

/-- No command reads HAZ, the script or the schedule, and none writes them (10_state.md R37). -/
theorem Executed.withTurns {s u : State} {i : Instr} (h : Executed s i u) (haz : Bool) (ms : List HostMove)
    (turns : List Agent) :
    Executed { s.withTurns ms turns with haz := haz } i { u.withTurns ms turns with haz := haz } := by
  obtain ⟨u', hu', -, -, -, -, -, -, -, -, -, -, hreads, hdraws⟩ := exec_spec i s
  obtain rfl : u' = u := Host.Outcome.next.inj (hu'.symm.trans h.exec_eq)
  have hend : { u'.withTurns ms turns with haz := haz } = { u' with
      haz := haz, script := ms, schedule := turns, reads := s.reads, draws := s.draws } := by
    rw [← hreads, ← hdraws]
    rfl
  rw [hend]
  exact h.withHostSide { s.withTurns ms turns with haz := haz }

theorem State.withTurns_eq_self {s : State} {ms : List HostMove} {turns : List Agent} (hscript : s.script = ms)
    (hsched : s.schedule = turns) : s.withTurns ms turns = s := by
  subst hscript hsched
  rfl

/-! ### The three turns -/

theorem step_issue {s : State} {w : Word} (hpend : s.pend = none) (ms : List HostMove) (turns : List Agent) :
    step (s.withTurns (.write 0x010 w :: ms) (.host :: turns)) = .next ((s.issue w).withTurns ms turns) :=
  step_write_cmd ⟨rfl, rfl⟩ (State.busy_eq_false hpend)

/-- The engine's turn on the pending word, whatever HAZ, the script and the turns after it are. -/
theorem Executed.step_engine {s u : State} {w : Word} (h : Executed s (decodeWord w) u) (hpend : s.pend = some w)
    (haz : Bool) (ms : List HostMove) (turns : List Agent) :
    step { s.withTurns ms (.engine :: turns) with haz := haz } = .next { u.withTurns ms turns with haz := haz } :=
  (step_of_pend (s := { s.withTurns ms (.engine :: turns) with haz := haz }) hpend rfl).trans
    (h.withTurns haz ms turns).exec_eq

/-- ENCODE within the payload bound keeps FC and leaves the checksum in FCS (41_frame_codec.md R77). -/
theorem execEncode_results {s u : State} (h : exec .encode s = .next u) (hfits : s.Fits) :
    u.fc = s.fc ∧ u.fcs = s.ck s.body ∧ u.err = 0 := by
  obtain rfl := Host.Outcome.next.inj ((execEncode_of_fits hfits).symm.trans h)
  exact ⟨rfl, rfl, rfl⟩

/-- Settles O46: the command ends in one state `u` by either schedule, and the write acts on `u` where the engine's
turn came first. -/
theorem writeAndEngineStepMayComeInEitherOrder : Obligations.WriteAndEngineStepMayComeInEitherOrder := by
  intro s w x off hpend halign hle hoff
  have hl := legalOffset_of_le halign hle
  have hne := Target.ofOffset_ne_status hoff
  obtain ⟨u, hu, hidle, hdone, hhaz, -, -, -, -, -, hscript, hsched, -⟩ :=
    exec_spec (decodeWord w) ((s.issue w).withTurns [] [])
  have hex : Executed ((s.issue w).withTurns [] []) (decodeWord w) u := executed_iff.2 hu
  have hkept : { u with haz := s.haz } = u := congrArg (fun b => { u with haz := b }) hhaz.symm
  have hengine : step ((s.issue w).withTurns [.write off x] [.engine, .host])
      = .next (u.withTurns [.write off x] [.host]) := by
    conv_rhs => rw [← hkept]
    exact hex.step_engine rfl s.haz [.write off x] [.host]
  have hwrite : step (u.withTurns [.write off x] [.host]) = .next (u.writeTarget x (Target.ofOffset off)) := by
    conv_rhs => rw [← State.withTurns_eq_self hscript hsched]
    exact step_write_idle ⟨rfl, rfl⟩ hl (State.busy_eq_false hidle)
  have hrefused : step ((s.issue w).withTurns [.write off x] [.host, .engine])
      = .next { (s.issue w).withTurns [] [.engine] with haz := true } :=
    step_write_busy ⟨rfl, rfl⟩ hl rfl hne
  have hlate : step { (s.issue w).withTurns [] [.engine] with haz := true } = .next { u with haz := true } := by
    conv_rhs => rw [← State.withTurns_eq_self hscript hsched]
    exact hex.step_engine rfl true [] []
  refine ⟨u, u.writeTarget x (Target.ofOffset off), hu, hdone, hhaz,
    .succ (step_issue hpend _ _) (.succ hengine (.succ hwrite (.zero _))), hwrite,
    (u.writeTarget_haz x hne).trans hhaz, fun ho => ?_, fun ho => ?_,
    .succ (step_issue hpend _ _) (.succ hrefused (.succ hlate (.zero _))), fun hw hfits => ?_⟩
  · subst ho
    rw [BitVec.ofNat_toNat]
    rfl
  · subst ho
    rfl
  · subst hw
    exact execEncode_results (s := (s.issue 1).withTurns [] []) hu hfits

end Sys2Proof.Machine
end
